-- ==== Sys2Proof/Word.lean ====
section
/-! DEFINITION. The word types of the ARM7TDMI: 32-bit words, 16-bit halfwords and 8-bit bytes (spec/20_memory.md R73),
and the register numbers an instruction holds. -/

namespace Sys2Proof

/-- A 32-bit register value or address (00_scope R9, 20_memory R71). -/
abbrev Word := BitVec 32

/-- A 16-bit halfword: a Thumb instruction or a halfword of data. -/
abbrev Half := BitVec 16

/-- The addressable unit (20_memory R71). -/
abbrev Byte := BitVec 8

/-- A register number 0 to 15, the `i` of `x[i]` (00_scope R10). -/
abbrev Reg := BitVec 4

/-- A Thumb 3-bit register field: R0 to R7 (10_state R25). -/
abbrev LoReg := BitVec 3

end Sys2Proof
end

