-- ==== Sys2Proof/Syntax.lean ====
section
/-! DEFINITION. The instructions of the ARM7TDMI as syntax: one constructor of Instr for each of the 183 rows of
spec/opcode_table.json (106 ARM, 77 Thumb). A constructor's fields are the row's fields, each at its own width, so every
value of every field is a word of the row. Fields named as in spec/30_encoding.md R142 and R150. -/

namespace Sys2Proof

/-- The fifteen conditions (30_encoding R143). The reserved field 1111 is no condition (R144). -/
inductive Cond where
  | eq | ne | cs | cc | mi | pl | vs | vc | hi | ls | ge | lt | gt | le | al
  deriving DecidableEq, Repr

/-- The shift type field, bits [6:5] (30_encoding R149). -/
inductive ShiftType where
  | lsl | lsr | asr | ror
  deriving DecidableEq, Repr

/-- An immediate operand: an 8-bit value rotated right by twice a 4-bit amount (41_arm_data_processing R202). -/
structure RotImm where
  rotate : BitVec 4
  imm8   : BitVec 8
  deriving DecidableEq, Repr

/-- A register shifted by a 5-bit immediate (R203); as an offset, 44_arm_load_store R266. -/
structure ShImm where
  amount : BitVec 5
  type   : ShiftType
  rm     : Reg
  deriving DecidableEq, Repr

/-- A register shifted by the low byte of another register (R204). -/
structure ShReg where
  rs   : Reg
  type : ShiftType
  rm   : Reg
  deriving DecidableEq, Repr

/-- One constructor for each row of spec/opcode_table.json. `c` is the condition, `sf` the S bit, `p`, `u`, `w`, `n` the
bits of the same letter, `off` and `imm` immediates before any scaling. A Thumb constructor's name begins with `t`. -/
inductive Instr where
  /-- ARM B, format 11 branch; rule R191; table row 0. -/
  | b (c : Cond) (off : BitVec 24)
  /-- ARM BL, format 11 branch; rule R192; table row 1. -/
  | bl (c : Cond) (off : BitVec 24)
  /-- ARM BX, format 5 branch and exchange; rule R194; table row 2. -/
  | bx (c : Cond) (rn : Reg)
  /-- ARM AND, format 1 data processing, imm; rule R208; table row 3. -/
  | andImm (c : Cond) (sf : Bool) (rn : Reg) (rd : Reg) (o : RotImm)
  /-- ARM AND, format 1 data processing, reg_shift_imm; rule R208; table row 4. -/
  | andShImm (c : Cond) (sf : Bool) (rn : Reg) (rd : Reg) (o : ShImm)
  /-- ARM AND, format 1 data processing, reg_shift_reg; rule R208; table row 5. -/
  | andShReg (c : Cond) (sf : Bool) (rn : Reg) (rd : Reg) (o : ShReg)
  /-- ARM EOR, format 1 data processing, imm; rule R209; table row 6. -/
  | eorImm (c : Cond) (sf : Bool) (rn : Reg) (rd : Reg) (o : RotImm)
  /-- ARM EOR, format 1 data processing, reg_shift_imm; rule R209; table row 7. -/
  | eorShImm (c : Cond) (sf : Bool) (rn : Reg) (rd : Reg) (o : ShImm)
  /-- ARM EOR, format 1 data processing, reg_shift_reg; rule R209; table row 8. -/
  | eorShReg (c : Cond) (sf : Bool) (rn : Reg) (rd : Reg) (o : ShReg)
  /-- ARM SUB, format 1 data processing, imm; rule R210; table row 9. -/
  | subImm (c : Cond) (sf : Bool) (rn : Reg) (rd : Reg) (o : RotImm)
  /-- ARM SUB, format 1 data processing, reg_shift_imm; rule R210; table row 10. -/
  | subShImm (c : Cond) (sf : Bool) (rn : Reg) (rd : Reg) (o : ShImm)
  /-- ARM SUB, format 1 data processing, reg_shift_reg; rule R210; table row 11. -/
  | subShReg (c : Cond) (sf : Bool) (rn : Reg) (rd : Reg) (o : ShReg)
  /-- ARM RSB, format 1 data processing, imm; rule R211; table row 12. -/
  | rsbImm (c : Cond) (sf : Bool) (rn : Reg) (rd : Reg) (o : RotImm)
  /-- ARM RSB, format 1 data processing, reg_shift_imm; rule R211; table row 13. -/
  | rsbShImm (c : Cond) (sf : Bool) (rn : Reg) (rd : Reg) (o : ShImm)
  /-- ARM RSB, format 1 data processing, reg_shift_reg; rule R211; table row 14. -/
  | rsbShReg (c : Cond) (sf : Bool) (rn : Reg) (rd : Reg) (o : ShReg)
  /-- ARM ADD, format 1 data processing, imm; rule R212; table row 15. -/
  | addImm (c : Cond) (sf : Bool) (rn : Reg) (rd : Reg) (o : RotImm)
  /-- ARM ADD, format 1 data processing, reg_shift_imm; rule R212; table row 16. -/
  | addShImm (c : Cond) (sf : Bool) (rn : Reg) (rd : Reg) (o : ShImm)
  /-- ARM ADD, format 1 data processing, reg_shift_reg; rule R212; table row 17. -/
  | addShReg (c : Cond) (sf : Bool) (rn : Reg) (rd : Reg) (o : ShReg)
  /-- ARM ADC, format 1 data processing, imm; rule R213; table row 18. -/
  | adcImm (c : Cond) (sf : Bool) (rn : Reg) (rd : Reg) (o : RotImm)
  /-- ARM ADC, format 1 data processing, reg_shift_imm; rule R213; table row 19. -/
  | adcShImm (c : Cond) (sf : Bool) (rn : Reg) (rd : Reg) (o : ShImm)
  /-- ARM ADC, format 1 data processing, reg_shift_reg; rule R213; table row 20. -/
  | adcShReg (c : Cond) (sf : Bool) (rn : Reg) (rd : Reg) (o : ShReg)
  /-- ARM SBC, format 1 data processing, imm; rule R214; table row 21. -/
  | sbcImm (c : Cond) (sf : Bool) (rn : Reg) (rd : Reg) (o : RotImm)
  /-- ARM SBC, format 1 data processing, reg_shift_imm; rule R214; table row 22. -/
  | sbcShImm (c : Cond) (sf : Bool) (rn : Reg) (rd : Reg) (o : ShImm)
  /-- ARM SBC, format 1 data processing, reg_shift_reg; rule R214; table row 23. -/
  | sbcShReg (c : Cond) (sf : Bool) (rn : Reg) (rd : Reg) (o : ShReg)
  /-- ARM RSC, format 1 data processing, imm; rule R215; table row 24. -/
  | rscImm (c : Cond) (sf : Bool) (rn : Reg) (rd : Reg) (o : RotImm)
  /-- ARM RSC, format 1 data processing, reg_shift_imm; rule R215; table row 25. -/
  | rscShImm (c : Cond) (sf : Bool) (rn : Reg) (rd : Reg) (o : ShImm)
  /-- ARM RSC, format 1 data processing, reg_shift_reg; rule R215; table row 26. -/
  | rscShReg (c : Cond) (sf : Bool) (rn : Reg) (rd : Reg) (o : ShReg)
  /-- ARM TST, format 1 data processing, imm; rule R216; table row 27. -/
  | tstImm (c : Cond) (rn : Reg) (o : RotImm)
  /-- ARM TST, format 1 data processing, reg_shift_imm; rule R216; table row 28. -/
  | tstShImm (c : Cond) (rn : Reg) (o : ShImm)
  /-- ARM TST, format 1 data processing, reg_shift_reg; rule R216; table row 29. -/
  | tstShReg (c : Cond) (rn : Reg) (o : ShReg)
  /-- ARM TEQ, format 1 data processing, imm; rule R217; table row 30. -/
  | teqImm (c : Cond) (rn : Reg) (o : RotImm)
  /-- ARM TEQ, format 1 data processing, reg_shift_imm; rule R217; table row 31. -/
  | teqShImm (c : Cond) (rn : Reg) (o : ShImm)
  /-- ARM TEQ, format 1 data processing, reg_shift_reg; rule R217; table row 32. -/
  | teqShReg (c : Cond) (rn : Reg) (o : ShReg)
  /-- ARM CMP, format 1 data processing, imm; rule R218; table row 33. -/
  | cmpImm (c : Cond) (rn : Reg) (o : RotImm)
  /-- ARM CMP, format 1 data processing, reg_shift_imm; rule R218; table row 34. -/
  | cmpShImm (c : Cond) (rn : Reg) (o : ShImm)
  /-- ARM CMP, format 1 data processing, reg_shift_reg; rule R218; table row 35. -/
  | cmpShReg (c : Cond) (rn : Reg) (o : ShReg)
  /-- ARM CMN, format 1 data processing, imm; rule R219; table row 36. -/
  | cmnImm (c : Cond) (rn : Reg) (o : RotImm)
  /-- ARM CMN, format 1 data processing, reg_shift_imm; rule R219; table row 37. -/
  | cmnShImm (c : Cond) (rn : Reg) (o : ShImm)
  /-- ARM CMN, format 1 data processing, reg_shift_reg; rule R219; table row 38. -/
  | cmnShReg (c : Cond) (rn : Reg) (o : ShReg)
  /-- ARM ORR, format 1 data processing, imm; rule R220; table row 39. -/
  | orrImm (c : Cond) (sf : Bool) (rn : Reg) (rd : Reg) (o : RotImm)
  /-- ARM ORR, format 1 data processing, reg_shift_imm; rule R220; table row 40. -/
  | orrShImm (c : Cond) (sf : Bool) (rn : Reg) (rd : Reg) (o : ShImm)
  /-- ARM ORR, format 1 data processing, reg_shift_reg; rule R220; table row 41. -/
  | orrShReg (c : Cond) (sf : Bool) (rn : Reg) (rd : Reg) (o : ShReg)
  /-- ARM MOV, format 1 data processing, imm; rule R221; table row 42. -/
  | movImm (c : Cond) (sf : Bool) (rd : Reg) (o : RotImm)
  /-- ARM MOV, format 1 data processing, reg_shift_imm; rule R221; table row 43. -/
  | movShImm (c : Cond) (sf : Bool) (rd : Reg) (o : ShImm)
  /-- ARM MOV, format 1 data processing, reg_shift_reg; rule R221; table row 44. -/
  | movShReg (c : Cond) (sf : Bool) (rd : Reg) (o : ShReg)
  /-- ARM BIC, format 1 data processing, imm; rule R222; table row 45. -/
  | bicImm (c : Cond) (sf : Bool) (rn : Reg) (rd : Reg) (o : RotImm)
  /-- ARM BIC, format 1 data processing, reg_shift_imm; rule R222; table row 46. -/
  | bicShImm (c : Cond) (sf : Bool) (rn : Reg) (rd : Reg) (o : ShImm)
  /-- ARM BIC, format 1 data processing, reg_shift_reg; rule R222; table row 47. -/
  | bicShReg (c : Cond) (sf : Bool) (rn : Reg) (rd : Reg) (o : ShReg)
  /-- ARM MVN, format 1 data processing, imm; rule R223; table row 48. -/
  | mvnImm (c : Cond) (sf : Bool) (rd : Reg) (o : RotImm)
  /-- ARM MVN, format 1 data processing, reg_shift_imm; rule R223; table row 49. -/
  | mvnShImm (c : Cond) (sf : Bool) (rd : Reg) (o : ShImm)
  /-- ARM MVN, format 1 data processing, reg_shift_reg; rule R223; table row 50. -/
  | mvnShReg (c : Cond) (sf : Bool) (rd : Reg) (o : ShReg)
  /-- ARM MRS, format 1 PSR transfer; rule R241; table row 51. -/
  | mrs (c : Cond) (spsr : Bool) (rd : Reg)
  /-- ARM MSR, format 1 PSR transfer, register; rule R242; table row 52. -/
  | msrReg (c : Cond) (spsr : Bool) (mask : BitVec 4) (rm : Reg)
  /-- ARM MSR, format 1 PSR transfer, immediate; rule R243; table row 53. -/
  | msrImm (c : Cond) (spsr : Bool) (mask : BitVec 4) (o : RotImm)
  /-- ARM MUL, format 2 multiply; rule R251; table row 54. -/
  | mul (c : Cond) (sf : Bool) (rd : Reg) (rs : Reg) (rm : Reg)
  /-- ARM MLA, format 2 multiply; rule R252; table row 55. -/
  | mla (c : Cond) (sf : Bool) (rd : Reg) (rn : Reg) (rs : Reg) (rm : Reg)
  /-- ARM UMULL, format 3 multiply long; rule R253; table row 56. -/
  | umull (c : Cond) (sf : Bool) (hi : Reg) (lo : Reg) (rs : Reg) (rm : Reg)
  /-- ARM UMLAL, format 3 multiply long; rule R254; table row 57. -/
  | umlal (c : Cond) (sf : Bool) (hi : Reg) (lo : Reg) (rs : Reg) (rm : Reg)
  /-- ARM SMULL, format 3 multiply long; rule R255; table row 58. -/
  | smull (c : Cond) (sf : Bool) (hi : Reg) (lo : Reg) (rs : Reg) (rm : Reg)
  /-- ARM SMLAL, format 3 multiply long; rule R256; table row 59. -/
  | smlal (c : Cond) (sf : Bool) (hi : Reg) (lo : Reg) (rs : Reg) (rm : Reg)
  /-- ARM SWP, format 4 single data swap; rule R310; table row 60. -/
  | swp (c : Cond) (rn : Reg) (rd : Reg) (rm : Reg)
  /-- ARM SWPB, format 4 single data swap; rule R311; table row 61. -/
  | swpb (c : Cond) (rn : Reg) (rd : Reg) (rm : Reg)
  /-- ARM STRH, format 6 halfword transfer, register offset; rule R282; table row 62. -/
  | strhReg (c : Cond) (p : Bool) (u : Bool) (w : Bool) (rn : Reg) (rd : Reg) (rm : Reg)
  /-- ARM STRH, format 7 halfword transfer, immediate offset; rule R282; table row 63. -/
  | strhImm (c : Cond) (p : Bool) (u : Bool) (w : Bool) (rn : Reg) (rd : Reg) (imm : BitVec 8)
  /-- ARM LDRH, format 6 halfword transfer, register offset; rule R281; table row 64. -/
  | ldrhReg (c : Cond) (p : Bool) (u : Bool) (w : Bool) (rn : Reg) (rd : Reg) (rm : Reg)
  /-- ARM LDRH, format 7 halfword transfer, immediate offset; rule R281; table row 65. -/
  | ldrhImm (c : Cond) (p : Bool) (u : Bool) (w : Bool) (rn : Reg) (rd : Reg) (imm : BitVec 8)
  /-- ARM LDRSB, format 6 halfword transfer, register offset; rule R283; table row 66. -/
  | ldrsbReg (c : Cond) (p : Bool) (u : Bool) (w : Bool) (rn : Reg) (rd : Reg) (rm : Reg)
  /-- ARM LDRSB, format 7 halfword transfer, immediate offset; rule R283; table row 67. -/
  | ldrsbImm (c : Cond) (p : Bool) (u : Bool) (w : Bool) (rn : Reg) (rd : Reg) (imm : BitVec 8)
  /-- ARM LDRSH, format 6 halfword transfer, register offset; rule R284; table row 68. -/
  | ldrshReg (c : Cond) (p : Bool) (u : Bool) (w : Bool) (rn : Reg) (rd : Reg) (rm : Reg)
  /-- ARM LDRSH, format 7 halfword transfer, immediate offset; rule R284; table row 69. -/
  | ldrshImm (c : Cond) (p : Bool) (u : Bool) (w : Bool) (rn : Reg) (rd : Reg) (imm : BitVec 8)
  /-- ARM STR, format 8 single data transfer, immediate offset, pre-indexed; rule R268; table row 70. -/
  | strImmPre (c : Cond) (u : Bool) (w : Bool) (rn : Reg) (rd : Reg) (imm : BitVec 12)
  /-- ARM STR, format 8 single data transfer, immediate offset, post-indexed; rule R268; table row 71. -/
  | strImmPost (c : Cond) (u : Bool) (rn : Reg) (rd : Reg) (imm : BitVec 12)
  /-- ARM STRT, format 8 single data transfer, immediate offset, post-indexed, user privilege; rule R276; table row 72. -/
  | strtImm (c : Cond) (u : Bool) (rn : Reg) (rd : Reg) (imm : BitVec 12)
  /-- ARM STR, format 8 single data transfer, register offset, pre-indexed; rule R268; table row 73. -/
  | strRegPre (c : Cond) (u : Bool) (w : Bool) (rn : Reg) (rd : Reg) (o : ShImm)
  /-- ARM STR, format 8 single data transfer, register offset, post-indexed; rule R268; table row 74. -/
  | strRegPost (c : Cond) (u : Bool) (rn : Reg) (rd : Reg) (o : ShImm)
  /-- ARM STRT, format 8 single data transfer, register offset, post-indexed, user privilege; rule R276; table row 75. -/
  | strtReg (c : Cond) (u : Bool) (rn : Reg) (rd : Reg) (o : ShImm)
  /-- ARM LDR, format 8 single data transfer, immediate offset, pre-indexed; rule R267; table row 76. -/
  | ldrImmPre (c : Cond) (u : Bool) (w : Bool) (rn : Reg) (rd : Reg) (imm : BitVec 12)
  /-- ARM LDR, format 8 single data transfer, immediate offset, post-indexed; rule R267; table row 77. -/
  | ldrImmPost (c : Cond) (u : Bool) (rn : Reg) (rd : Reg) (imm : BitVec 12)
  /-- ARM LDRT, format 8 single data transfer, immediate offset, post-indexed, user privilege; rule R275; table row 78. -/
  | ldrtImm (c : Cond) (u : Bool) (rn : Reg) (rd : Reg) (imm : BitVec 12)
  /-- ARM LDR, format 8 single data transfer, register offset, pre-indexed; rule R267; table row 79. -/
  | ldrRegPre (c : Cond) (u : Bool) (w : Bool) (rn : Reg) (rd : Reg) (o : ShImm)
  /-- ARM LDR, format 8 single data transfer, register offset, post-indexed; rule R267; table row 80. -/
  | ldrRegPost (c : Cond) (u : Bool) (rn : Reg) (rd : Reg) (o : ShImm)
  /-- ARM LDRT, format 8 single data transfer, register offset, post-indexed, user privilege; rule R275; table row 81. -/
  | ldrtReg (c : Cond) (u : Bool) (rn : Reg) (rd : Reg) (o : ShImm)
  /-- ARM STRB, format 8 single data transfer, immediate offset, pre-indexed; rule R272; table row 82. -/
  | strbImmPre (c : Cond) (u : Bool) (w : Bool) (rn : Reg) (rd : Reg) (imm : BitVec 12)
  /-- ARM STRB, format 8 single data transfer, immediate offset, post-indexed; rule R272; table row 83. -/
  | strbImmPost (c : Cond) (u : Bool) (rn : Reg) (rd : Reg) (imm : BitVec 12)
  /-- ARM STRBT, format 8 single data transfer, immediate offset, post-indexed, user privilege; rule R279; table row 84. -/
  | strbtImm (c : Cond) (u : Bool) (rn : Reg) (rd : Reg) (imm : BitVec 12)
  /-- ARM STRB, format 8 single data transfer, register offset, pre-indexed; rule R272; table row 85. -/
  | strbRegPre (c : Cond) (u : Bool) (w : Bool) (rn : Reg) (rd : Reg) (o : ShImm)
  /-- ARM STRB, format 8 single data transfer, register offset, post-indexed; rule R272; table row 86. -/
  | strbRegPost (c : Cond) (u : Bool) (rn : Reg) (rd : Reg) (o : ShImm)
  /-- ARM STRBT, format 8 single data transfer, register offset, post-indexed, user privilege; rule R279; table row 87. -/
  | strbtReg (c : Cond) (u : Bool) (rn : Reg) (rd : Reg) (o : ShImm)
  /-- ARM LDRB, format 8 single data transfer, immediate offset, pre-indexed; rule R269; table row 88. -/
  | ldrbImmPre (c : Cond) (u : Bool) (w : Bool) (rn : Reg) (rd : Reg) (imm : BitVec 12)
  /-- ARM LDRB, format 8 single data transfer, immediate offset, post-indexed; rule R269; table row 89. -/
  | ldrbImmPost (c : Cond) (u : Bool) (rn : Reg) (rd : Reg) (imm : BitVec 12)
  /-- ARM LDRBT, format 8 single data transfer, immediate offset, post-indexed, user privilege; rule R278; table row 90. -/
  | ldrbtImm (c : Cond) (u : Bool) (rn : Reg) (rd : Reg) (imm : BitVec 12)
  /-- ARM LDRB, format 8 single data transfer, register offset, pre-indexed; rule R269; table row 91. -/
  | ldrbRegPre (c : Cond) (u : Bool) (w : Bool) (rn : Reg) (rd : Reg) (o : ShImm)
  /-- ARM LDRB, format 8 single data transfer, register offset, post-indexed; rule R269; table row 92. -/
  | ldrbRegPost (c : Cond) (u : Bool) (rn : Reg) (rd : Reg) (o : ShImm)
  /-- ARM LDRBT, format 8 single data transfer, register offset, post-indexed, user privilege; rule R278; table row 93. -/
  | ldrbtReg (c : Cond) (u : Bool) (rn : Reg) (rd : Reg) (o : ShImm)
  /-- ARM UNDEFINED, format 9 undefined; rule R330; table row 94. -/
  | undef (c : Cond) (hi : BitVec 20) (lo : BitVec 4)
  /-- ARM LDM, format 10 block data transfer; rule R302; table row 95. -/
  | ldm (c : Cond) (p : Bool) (u : Bool) (w : Bool) (rn : Reg) (list : BitVec 16)
  /-- ARM LDM, format 10 block data transfer, S = 1, R15 in list (exception return); rule R303; table row 96. -/
  | ldmRet (c : Cond) (p : Bool) (u : Bool) (w : Bool) (rn : Reg) (list : BitVec 15)
  /-- ARM LDM, format 10 block data transfer, S = 1, R15 not in list (user bank); rule R304; table row 97. -/
  | ldmUser (c : Cond) (p : Bool) (u : Bool) (w : Bool) (rn : Reg) (list : BitVec 15)
  /-- ARM STM, format 10 block data transfer; rule R305; table row 98. -/
  | stm (c : Cond) (p : Bool) (u : Bool) (w : Bool) (rn : Reg) (list : BitVec 16)
  /-- ARM STM, format 10 block data transfer, S = 1 (user bank); rule R306; table row 99. -/
  | stmUser (c : Cond) (p : Bool) (u : Bool) (w : Bool) (rn : Reg) (list : BitVec 16)
  /-- ARM STC, format 12 coprocessor data transfer; rule R331; table row 100. -/
  | stc (c : Cond) (p : Bool) (u : Bool) (n : Bool) (w : Bool) (rn : Reg) (crd : BitVec 4) (cp : BitVec 4) (imm : BitVec 8)
  /-- ARM LDC, format 12 coprocessor data transfer; rule R328; table row 101. -/
  | ldc (c : Cond) (p : Bool) (u : Bool) (n : Bool) (w : Bool) (rn : Reg) (crd : BitVec 4) (cp : BitVec 4) (imm : BitVec 8)
  /-- ARM CDP, format 13 coprocessor data operation; rule R325; table row 102. -/
  | cdp (c : Cond) (opc1 : BitVec 4) (crn : BitVec 4) (crd : BitVec 4) (cp : BitVec 4) (opc2 : BitVec 3) (crm : BitVec 4)
  /-- ARM MCR, format 14 coprocessor register transfer; rule R327; table row 103. -/
  | mcr (c : Cond) (opc1 : BitVec 3) (crn : BitVec 4) (rd : Reg) (cp : BitVec 4) (opc2 : BitVec 3) (crm : BitVec 4)
  /-- ARM MRC, format 14 coprocessor register transfer; rule R326; table row 104. -/
  | mrc (c : Cond) (opc1 : BitVec 3) (crn : BitVec 4) (rd : Reg) (cp : BitVec 4) (opc2 : BitVec 3) (crm : BitVec 4)
  /-- ARM SWI, format 15 software interrupt; rule R321; table row 105. -/
  | swi (c : Cond) (imm : BitVec 24)
  /-- Thumb LSL, format 1 move shifted register; rule R341; table row 106. -/
  | tLslImm (imm : BitVec 5) (rs : LoReg) (rd : LoReg)
  /-- Thumb LSR, format 1 move shifted register; rule R342; table row 107. -/
  | tLsrImm (imm : BitVec 5) (rs : LoReg) (rd : LoReg)
  /-- Thumb ASR, format 1 move shifted register; rule R343; table row 108. -/
  | tAsrImm (imm : BitVec 5) (rs : LoReg) (rd : LoReg)
  /-- Thumb ADD, format 2 add/subtract, register; rule R344; table row 109. -/
  | tAddReg (rn : LoReg) (rs : LoReg) (rd : LoReg)
  /-- Thumb SUB, format 2 add/subtract, register; rule R345; table row 110. -/
  | tSubReg (rn : LoReg) (rs : LoReg) (rd : LoReg)
  /-- Thumb ADD, format 2 add/subtract, 3-bit immediate; rule R346; table row 111. -/
  | tAddImm3 (imm : BitVec 3) (rs : LoReg) (rd : LoReg)
  /-- Thumb SUB, format 2 add/subtract, 3-bit immediate; rule R347; table row 112. -/
  | tSubImm3 (imm : BitVec 3) (rs : LoReg) (rd : LoReg)
  /-- Thumb MOV, format 3 move/compare/add/subtract immediate; rule R348; table row 113. -/
  | tMovImm (rd : LoReg) (imm : BitVec 8)
  /-- Thumb CMP, format 3 move/compare/add/subtract immediate; rule R349; table row 114. -/
  | tCmpImm (rd : LoReg) (imm : BitVec 8)
  /-- Thumb ADD, format 3 move/compare/add/subtract immediate; rule R350; table row 115. -/
  | tAddImm8 (rd : LoReg) (imm : BitVec 8)
  /-- Thumb SUB, format 3 move/compare/add/subtract immediate; rule R351; table row 116. -/
  | tSubImm8 (rd : LoReg) (imm : BitVec 8)
  /-- Thumb AND, format 4 ALU operation; rule R352; table row 117. -/
  | tAnd (rs : LoReg) (rd : LoReg)
  /-- Thumb EOR, format 4 ALU operation; rule R353; table row 118. -/
  | tEor (rs : LoReg) (rd : LoReg)
  /-- Thumb LSL, format 4 ALU operation; rule R354; table row 119. -/
  | tLslReg (rs : LoReg) (rd : LoReg)
  /-- Thumb LSR, format 4 ALU operation; rule R355; table row 120. -/
  | tLsrReg (rs : LoReg) (rd : LoReg)
  /-- Thumb ASR, format 4 ALU operation; rule R356; table row 121. -/
  | tAsrReg (rs : LoReg) (rd : LoReg)
  /-- Thumb ADC, format 4 ALU operation; rule R357; table row 122. -/
  | tAdc (rs : LoReg) (rd : LoReg)
  /-- Thumb SBC, format 4 ALU operation; rule R358; table row 123. -/
  | tSbc (rs : LoReg) (rd : LoReg)
  /-- Thumb ROR, format 4 ALU operation; rule R359; table row 124. -/
  | tRorReg (rs : LoReg) (rd : LoReg)
  /-- Thumb TST, format 4 ALU operation; rule R360; table row 125. -/
  | tTst (rs : LoReg) (rd : LoReg)
  /-- Thumb NEG, format 4 ALU operation; rule R361; table row 126. -/
  | tNeg (rs : LoReg) (rd : LoReg)
  /-- Thumb CMP, format 4 ALU operation; rule R362; table row 127. -/
  | tCmpReg (rs : LoReg) (rd : LoReg)
  /-- Thumb CMN, format 4 ALU operation; rule R363; table row 128. -/
  | tCmn (rs : LoReg) (rd : LoReg)
  /-- Thumb ORR, format 4 ALU operation; rule R364; table row 129. -/
  | tOrr (rs : LoReg) (rd : LoReg)
  /-- Thumb MUL, format 4 ALU operation; rule R365; table row 130. -/
  | tMul (rs : LoReg) (rd : LoReg)
  /-- Thumb BIC, format 4 ALU operation; rule R366; table row 131. -/
  | tBic (rs : LoReg) (rd : LoReg)
  /-- Thumb MVN, format 4 ALU operation; rule R367; table row 132. -/
  | tMvn (rs : LoReg) (rd : LoReg)
  /-- Thumb ADD, format 5 hi register operation, H1 = 1; rule R376; table row 133. -/
  | tAddHd (hd : LoReg) (rs : Reg)
  /-- Thumb ADD, format 5 hi register operation, H1 = 0, H2 = 1; rule R376; table row 134. -/
  | tAddHs (rd : LoReg) (hs : LoReg)
  /-- Thumb CMP, format 5 hi register operation, H1 = 1; rule R377; table row 135. -/
  | tCmpHd (hd : LoReg) (rs : Reg)
  /-- Thumb CMP, format 5 hi register operation, H1 = 0, H2 = 1; rule R377; table row 136. -/
  | tCmpHs (rd : LoReg) (hs : LoReg)
  /-- Thumb MOV, format 5 hi register operation, H1 = 1; rule R378; table row 137. -/
  | tMovHd (hd : LoReg) (rs : Reg)
  /-- Thumb MOV, format 5 hi register operation, H1 = 0, H2 = 1; rule R378; table row 138. -/
  | tMovHs (rd : LoReg) (hs : LoReg)
  /-- Thumb BX, format 5 branch exchange; rule R379; table row 139. -/
  | tBx (rs : Reg)
  /-- Thumb LDR, format 6 PC-relative load; rule R400; table row 140. -/
  | tLdrPc (rd : LoReg) (imm : BitVec 8)
  /-- Thumb STR, format 7 load/store with register offset; rule R401; table row 141. -/
  | tStrReg (ro : LoReg) (rb : LoReg) (rd : LoReg)
  /-- Thumb STRB, format 7 load/store with register offset; rule R402; table row 142. -/
  | tStrbReg (ro : LoReg) (rb : LoReg) (rd : LoReg)
  /-- Thumb LDR, format 7 load/store with register offset; rule R403; table row 143. -/
  | tLdrReg (ro : LoReg) (rb : LoReg) (rd : LoReg)
  /-- Thumb LDRB, format 7 load/store with register offset; rule R404; table row 144. -/
  | tLdrbReg (ro : LoReg) (rb : LoReg) (rd : LoReg)
  /-- Thumb STRH, format 8 load/store sign-extended byte/halfword; rule R405; table row 145. -/
  | tStrhReg (ro : LoReg) (rb : LoReg) (rd : LoReg)
  /-- Thumb LDRH, format 8 load/store sign-extended byte/halfword; rule R406; table row 146. -/
  | tLdrhReg (ro : LoReg) (rb : LoReg) (rd : LoReg)
  /-- Thumb LDSB, format 8 load/store sign-extended byte/halfword; rule R407; table row 147. -/
  | tLdsbReg (ro : LoReg) (rb : LoReg) (rd : LoReg)
  /-- Thumb LDSH, format 8 load/store sign-extended byte/halfword; rule R408; table row 148. -/
  | tLdshReg (ro : LoReg) (rb : LoReg) (rd : LoReg)
  /-- Thumb STR, format 9 load/store with immediate offset; rule R409; table row 149. -/
  | tStrImm (imm : BitVec 5) (rb : LoReg) (rd : LoReg)
  /-- Thumb LDR, format 9 load/store with immediate offset; rule R410; table row 150. -/
  | tLdrImm (imm : BitVec 5) (rb : LoReg) (rd : LoReg)
  /-- Thumb STRB, format 9 load/store with immediate offset; rule R411; table row 151. -/
  | tStrbImm (imm : BitVec 5) (rb : LoReg) (rd : LoReg)
  /-- Thumb LDRB, format 9 load/store with immediate offset; rule R412; table row 152. -/
  | tLdrbImm (imm : BitVec 5) (rb : LoReg) (rd : LoReg)
  /-- Thumb STRH, format 10 load/store halfword; rule R413; table row 153. -/
  | tStrhImm (imm : BitVec 5) (rb : LoReg) (rd : LoReg)
  /-- Thumb LDRH, format 10 load/store halfword; rule R414; table row 154. -/
  | tLdrhImm (imm : BitVec 5) (rb : LoReg) (rd : LoReg)
  /-- Thumb STR, format 11 SP-relative load/store; rule R418; table row 155. -/
  | tStrSp (rd : LoReg) (imm : BitVec 8)
  /-- Thumb LDR, format 11 SP-relative load/store; rule R419; table row 156. -/
  | tLdrSp (rd : LoReg) (imm : BitVec 8)
  /-- Thumb ADD, format 12 load address, PC; rule R421; table row 157. -/
  | tAddPc (rd : LoReg) (imm : BitVec 8)
  /-- Thumb ADD, format 12 load address, SP; rule R420; table row 158. -/
  | tAddSp (rd : LoReg) (imm : BitVec 8)
  /-- Thumb ADD, format 13 add offset to stack pointer, S = 0; rule R422; table row 159. -/
  | tAddSpImm (imm : BitVec 7)
  /-- Thumb ADD, format 13 add offset to stack pointer, S = 1 (subtract); rule R423; table row 160. -/
  | tSubSpImm (imm : BitVec 7)
  /-- Thumb PUSH, format 14 push/pop registers; rule R424; table row 161. -/
  | tPush (r : Bool) (list : BitVec 8)
  /-- Thumb POP, format 14 push/pop registers; rule R425; table row 162. -/
  | tPop (r : Bool) (list : BitVec 8)
  /-- Thumb STMIA, format 15 multiple load/store; rule R426; table row 163. -/
  | tStmia (rb : LoReg) (list : BitVec 8)
  /-- Thumb LDMIA, format 15 multiple load/store; rule R427; table row 164. -/
  | tLdmia (rb : LoReg) (list : BitVec 8)
  /-- Thumb BEQ, format 16 conditional branch; rule R441; table row 165. -/
  | tBeq (off : BitVec 8)
  /-- Thumb BNE, format 16 conditional branch; rule R441; table row 166. -/
  | tBne (off : BitVec 8)
  /-- Thumb BCS, format 16 conditional branch; rule R441; table row 167. -/
  | tBcs (off : BitVec 8)
  /-- Thumb BCC, format 16 conditional branch; rule R441; table row 168. -/
  | tBcc (off : BitVec 8)
  /-- Thumb BMI, format 16 conditional branch; rule R441; table row 169. -/
  | tBmi (off : BitVec 8)
  /-- Thumb BPL, format 16 conditional branch; rule R441; table row 170. -/
  | tBpl (off : BitVec 8)
  /-- Thumb BVS, format 16 conditional branch; rule R441; table row 171. -/
  | tBvs (off : BitVec 8)
  /-- Thumb BVC, format 16 conditional branch; rule R441; table row 172. -/
  | tBvc (off : BitVec 8)
  /-- Thumb BHI, format 16 conditional branch; rule R441; table row 173. -/
  | tBhi (off : BitVec 8)
  /-- Thumb BLS, format 16 conditional branch; rule R441; table row 174. -/
  | tBls (off : BitVec 8)
  /-- Thumb BGE, format 16 conditional branch; rule R441; table row 175. -/
  | tBge (off : BitVec 8)
  /-- Thumb BLT, format 16 conditional branch; rule R441; table row 176. -/
  | tBlt (off : BitVec 8)
  /-- Thumb BGT, format 16 conditional branch; rule R441; table row 177. -/
  | tBgt (off : BitVec 8)
  /-- Thumb BLE, format 16 conditional branch; rule R441; table row 178. -/
  | tBle (off : BitVec 8)
  /-- Thumb SWI, format 17 software interrupt; rule R443; table row 179. -/
  | tSwi (imm : BitVec 8)
  /-- Thumb B, format 18 unconditional branch; rule R444; table row 180. -/
  | tB (off : BitVec 11)
  /-- Thumb BL, format 19 long branch with link, first half (H = 0); rule R446; table row 181. -/
  | tBlHi (off : BitVec 11)
  /-- Thumb BL, format 19 long branch with link, second half (H = 1); rule R447; table row 182. -/
  | tBlLo (off : BitVec 11)
  deriving DecidableEq, Repr

end Sys2Proof
end

