-- ==== Sys2Proof/Decode.lean ====
section
/-! DEFINITION. Decoding an ARM word or a Thumb halfword into an instruction or a rejection by name (spec/30_encoding.md R144 to
R147, R151, R153), decoding from bytes, and the encoder (R142, R143, R149, R150, R152). -/

namespace Sys2Proof

/-- Why a word is no instruction. -/
inductive DecodeError where
  /-- ARM condition field 1111 (R144). -/
  | reservedCondition
  /-- An ARM word R145 calls unallocated (R147). -/
  | unallocatedArm
  /-- An ARM word that breaks a should-be-zero bit of an allocated instruction (R146). -/
  | shouldBeBits
  /-- A Thumb halfword of no format (R153). -/
  | unallocatedThumb
  /-- Fewer bytes than one instruction. -/
  | truncated
  deriving DecidableEq, Repr

/-- What the decoder answers. -/
abbrev Decoded := Except DecodeError Instr

/-- The condition of a 4-bit field (R143); 1111 is none (R144). -/
def Cond.ofBits (b : BitVec 4) : Option Cond :=
  match b.toNat with
  | 0 => some .eq
  | 1 => some .ne
  | 2 => some .cs
  | 3 => some .cc
  | 4 => some .mi
  | 5 => some .pl
  | 6 => some .vs
  | 7 => some .vc
  | 8 => some .hi
  | 9 => some .ls
  | 10 => some .ge
  | 11 => some .lt
  | 12 => some .gt
  | 13 => some .le
  | 14 => some .al
  | _ => none

/-- The field of a condition (R143). -/
def Cond.bits : Cond → BitVec 4
  | .eq => 0b0000#4
  | .ne => 0b0001#4
  | .cs => 0b0010#4
  | .cc => 0b0011#4
  | .mi => 0b0100#4
  | .pl => 0b0101#4
  | .vs => 0b0110#4
  | .vc => 0b0111#4
  | .hi => 0b1000#4
  | .ls => 0b1001#4
  | .ge => 0b1010#4
  | .lt => 0b1011#4
  | .gt => 0b1100#4
  | .le => 0b1101#4
  | .al => 0b1110#4

/-- The shift type of bits [6:5] (R149). -/
def ShiftType.ofBits (b1 b0 : Bool) : ShiftType :=
  match b1, b0 with
  | false, false => .lsl
  | false, true => .lsr
  | true, false => .asr
  | true, true => .ror

/-- The bits [6:5] of a shift type (R149). -/
def ShiftType.bits : ShiftType → BitVec 2
  | .lsl => 0b00#2
  | .lsr => 0b01#2
  | .asr => 0b10#2
  | .ror => 0b11#2

/-! ## Operands of an ARM word (R149) -/

/-- `cond`'s neighbours: Rn = w[19:16]. -/
def fieldRn (w : Word) : Reg := w.extractLsb' 16 4

/-- Rd = w[15:12]. -/
def fieldRd (w : Word) : Reg := w.extractLsb' 12 4

/-- Rs = w[11:8]. -/
def fieldRs (w : Word) : Reg := w.extractLsb' 8 4

/-- Rm = w[3:0]. -/
def fieldRm (w : Word) : Reg := w.extractLsb' 0 4

/-- rotate = w[11:8], imm8 = w[7:0]. -/
def fieldImm (w : Word) : RotImm := { rotate := w.extractLsb' 8 4, imm8 := w.extractLsb' 0 8 }

/-- shift_imm = w[11:7], type = w[6:5], Rm = w[3:0]. -/
def fieldShImm (w : Word) : ShImm :=
  { amount := w.extractLsb' 7 5, type := .ofBits (w.getLsbD 6) (w.getLsbD 5), rm := fieldRm w }

/-- Rs = w[11:8], type = w[6:5], Rm = w[3:0]. -/
def fieldShReg (w : Word) : ShReg :=
  { rs := fieldRs w, type := .ofBits (w.getLsbD 6) (w.getLsbD 5), rm := fieldRm w }

/-- An instruction whose field `v` should be zero (R146). -/
def sbz {n : Nat} (v : BitVec n) (i : Instr) : Decoded := if v == 0 then .ok i else .error .shouldBeBits

/-! ## ARM decode (R145), one function for each class -/

/-- Data processing, immediate operand; opcode = w[24:21]. -/
def decodeDpImm (c : Cond) (w : Word) : Decoded :=
  let s := w.getLsbD 20
  let rn := fieldRn w
  let rd := fieldRd w
  let o := fieldImm w
  match (w.extractLsb' 21 4).toNat with
  | 0 => .ok (.andImm c s rn rd o)
  | 1 => .ok (.eorImm c s rn rd o)
  | 2 => .ok (.subImm c s rn rd o)
  | 3 => .ok (.rsbImm c s rn rd o)
  | 4 => .ok (.addImm c s rn rd o)
  | 5 => .ok (.adcImm c s rn rd o)
  | 6 => .ok (.sbcImm c s rn rd o)
  | 7 => .ok (.rscImm c s rn rd o)
  | 8 => sbz rd (.tstImm c rn o)
  | 9 => sbz rd (.teqImm c rn o)
  | 10 => sbz rd (.cmpImm c rn o)
  | 11 => sbz rd (.cmnImm c rn o)
  | 12 => .ok (.orrImm c s rn rd o)
  | 13 => sbz rn (.movImm c s rd o)
  | 14 => .ok (.bicImm c s rn rd o)
  | _ => sbz rn (.mvnImm c s rd o)

/-- Data processing, shift by immediate. -/
def decodeDpShImm (c : Cond) (w : Word) : Decoded :=
  let s := w.getLsbD 20
  let rn := fieldRn w
  let rd := fieldRd w
  let o := fieldShImm w
  match (w.extractLsb' 21 4).toNat with
  | 0 => .ok (.andShImm c s rn rd o)
  | 1 => .ok (.eorShImm c s rn rd o)
  | 2 => .ok (.subShImm c s rn rd o)
  | 3 => .ok (.rsbShImm c s rn rd o)
  | 4 => .ok (.addShImm c s rn rd o)
  | 5 => .ok (.adcShImm c s rn rd o)
  | 6 => .ok (.sbcShImm c s rn rd o)
  | 7 => .ok (.rscShImm c s rn rd o)
  | 8 => sbz rd (.tstShImm c rn o)
  | 9 => sbz rd (.teqShImm c rn o)
  | 10 => sbz rd (.cmpShImm c rn o)
  | 11 => sbz rd (.cmnShImm c rn o)
  | 12 => .ok (.orrShImm c s rn rd o)
  | 13 => sbz rn (.movShImm c s rd o)
  | 14 => .ok (.bicShImm c s rn rd o)
  | _ => sbz rn (.mvnShImm c s rd o)

/-- Data processing, shift by register. -/
def decodeDpShReg (c : Cond) (w : Word) : Decoded :=
  let s := w.getLsbD 20
  let rn := fieldRn w
  let rd := fieldRd w
  let o := fieldShReg w
  match (w.extractLsb' 21 4).toNat with
  | 0 => .ok (.andShReg c s rn rd o)
  | 1 => .ok (.eorShReg c s rn rd o)
  | 2 => .ok (.subShReg c s rn rd o)
  | 3 => .ok (.rsbShReg c s rn rd o)
  | 4 => .ok (.addShReg c s rn rd o)
  | 5 => .ok (.adcShReg c s rn rd o)
  | 6 => .ok (.sbcShReg c s rn rd o)
  | 7 => .ok (.rscShReg c s rn rd o)
  | 8 => sbz rd (.tstShReg c rn o)
  | 9 => sbz rd (.teqShReg c rn o)
  | 10 => sbz rd (.cmpShReg c rn o)
  | 11 => sbz rd (.cmnShReg c rn o)
  | 12 => .ok (.orrShReg c s rn rd o)
  | 13 => sbz rn (.movShReg c s rd o)
  | 14 => .ok (.bicShReg c s rn rd o)
  | _ => sbz rn (.mvnShReg c s rd o)

/-- w[27:25] = 000 with w[7:4] = 1001: the multiplies and the swap, by w[24:23]. -/
def decodeMulSwap (c : Cond) (w : Word) : Decoded :=
  let s := w.getLsbD 20
  let f19 := fieldRn w
  let f15 := fieldRd w
  match w.getLsbD 24, w.getLsbD 23, w.getLsbD 22, w.getLsbD 21 with
  | false, false, false, false => sbz f15 (.mul c s f19 (fieldRs w) (fieldRm w))
  | false, false, false, true => .ok (.mla c s f19 f15 (fieldRs w) (fieldRm w))
  | false, false, true, _ => .error .unallocatedArm
  | false, true, false, false => .ok (.umull c s f19 f15 (fieldRs w) (fieldRm w))
  | false, true, false, true => .ok (.umlal c s f19 f15 (fieldRs w) (fieldRm w))
  | false, true, true, false => .ok (.smull c s f19 f15 (fieldRs w) (fieldRm w))
  | false, true, true, true => .ok (.smlal c s f19 f15 (fieldRs w) (fieldRm w))
  | true, false, b, false =>
    if s || fieldRs w != 0 then .error .unallocatedArm
    else if b then .ok (.swpb c f19 f15 (fieldRm w)) else .ok (.swp c f19 f15 (fieldRm w))
  | true, false, _, true => .error .unallocatedArm
  | true, true, _, _ => .error .unallocatedArm

/-- w[27:25] = 000 with w[7] = w[4] = 1 and w[6:5] not 00: halfword and signed transfers (formats 6, 7). -/
def decodeHalf (c : Cond) (w : Word) : Decoded :=
  let p := w.getLsbD 24
  let u := w.getLsbD 23
  let wb := w.getLsbD 21
  let rn := fieldRn w
  let rd := fieldRd w
  let rm := fieldRm w
  let imm : BitVec 8 := w.extractLsb' 8 4 ++ w.extractLsb' 0 4
  match w.getLsbD 20, w.getLsbD 6, w.getLsbD 5, w.getLsbD 22 with
  | false, false, true, false => sbz (fieldRs w) (.strhReg c p u wb rn rd rm)
  | false, false, true, true => .ok (.strhImm c p u wb rn rd imm)
  | true, false, true, false => sbz (fieldRs w) (.ldrhReg c p u wb rn rd rm)
  | true, false, true, true => .ok (.ldrhImm c p u wb rn rd imm)
  | true, true, false, false => sbz (fieldRs w) (.ldrsbReg c p u wb rn rd rm)
  | true, true, false, true => .ok (.ldrsbImm c p u wb rn rd imm)
  | true, true, true, false => sbz (fieldRs w) (.ldrshReg c p u wb rn rd rm)
  | true, true, true, true => .ok (.ldrshImm c p u wb rn rd imm)
  | _, _, _, _ => .error .unallocatedArm

/-- w[27:25] = 000, w[24:23] = 10, w[20] = 0: BX, MRS, and MSR of a register. -/
def decodeControl (c : Cond) (w : Word) : Decoded :=
  if w.extractLsb' 4 24 == 0x12FFF1#24 then .ok (.bx c (fieldRm w))
  else if !w.getLsbD 21 && w.extractLsb' 16 4 == 0b1111#4 && w.extractLsb' 0 12 == 0#12 then
    .ok (.mrs c (w.getLsbD 22) (fieldRd w))
  else if w.getLsbD 21 && w.extractLsb' 12 4 == 0b1111#4 && w.extractLsb' 4 8 == 0#8 then
    .ok (.msrReg c (w.getLsbD 22) (fieldRn w) (fieldRm w))
  else .error .unallocatedArm

/-- Single data transfer (format 8): `imm` when w[25] = 0. -/
def decodeSingle (c : Cond) (w : Word) : Decoded :=
  let u := w.getLsbD 23
  let rn := fieldRn w
  let rd := fieldRd w
  let i : BitVec 12 := w.extractLsb' 0 12
  let o := fieldShImm w
  let wb := w.getLsbD 21
  -- register offset, byte, load, pre-indexed; then write-back
  match w.getLsbD 25, w.getLsbD 22, w.getLsbD 20, w.getLsbD 24 with
  | false, false, false, true => .ok (.strImmPre c u wb rn rd i)
  | false, false, false, false => .ok (if wb then .strtImm c u rn rd i else .strImmPost c u rn rd i)
  | true, false, false, true => .ok (.strRegPre c u wb rn rd o)
  | true, false, false, false => .ok (if wb then .strtReg c u rn rd o else .strRegPost c u rn rd o)
  | false, false, true, true => .ok (.ldrImmPre c u wb rn rd i)
  | false, false, true, false => .ok (if wb then .ldrtImm c u rn rd i else .ldrImmPost c u rn rd i)
  | true, false, true, true => .ok (.ldrRegPre c u wb rn rd o)
  | true, false, true, false => .ok (if wb then .ldrtReg c u rn rd o else .ldrRegPost c u rn rd o)
  | false, true, false, true => .ok (.strbImmPre c u wb rn rd i)
  | false, true, false, false => .ok (if wb then .strbtImm c u rn rd i else .strbImmPost c u rn rd i)
  | true, true, false, true => .ok (.strbRegPre c u wb rn rd o)
  | true, true, false, false => .ok (if wb then .strbtReg c u rn rd o else .strbRegPost c u rn rd o)
  | false, true, true, true => .ok (.ldrbImmPre c u wb rn rd i)
  | false, true, true, false => .ok (if wb then .ldrbtImm c u rn rd i else .ldrbImmPost c u rn rd i)
  | true, true, true, true => .ok (.ldrbRegPre c u wb rn rd o)
  | true, true, true, false => .ok (if wb then .ldrbtReg c u rn rd o else .ldrbRegPost c u rn rd o)

/-- Block data transfer (format 10): by L, S and, for an LDM with S = 1, bit 15 of the list. -/
def decodeBlock (c : Cond) (w : Word) : Decoded :=
  let p := w.getLsbD 24
  let u := w.getLsbD 23
  let wb := w.getLsbD 21
  let rn := fieldRn w
  match w.getLsbD 20, w.getLsbD 22, w.getLsbD 15 with
  | true, false, _ => .ok (.ldm c p u wb rn (w.extractLsb' 0 16))
  | true, true, true => .ok (.ldmRet c p u wb rn (w.extractLsb' 0 15))
  | true, true, false => .ok (.ldmUser c p u wb rn (w.extractLsb' 0 15))
  | false, false, _ => .ok (.stm c p u wb rn (w.extractLsb' 0 16))
  | false, true, _ => .ok (.stmUser c p u wb rn (w.extractLsb' 0 16))

/-- Coprocessor data transfer (format 12). -/
def decodeCpTransfer (c : Cond) (w : Word) : Decoded :=
  let p := w.getLsbD 24
  let u := w.getLsbD 23
  let n := w.getLsbD 22
  let wb := w.getLsbD 21
  let imm : BitVec 8 := w.extractLsb' 0 8
  if w.getLsbD 20 then .ok (.ldc c p u n wb (fieldRn w) (fieldRd w) (fieldRs w) imm)
  else .ok (.stc c p u n wb (fieldRn w) (fieldRd w) (fieldRs w) imm)

/-- w[27:25] = 111: software interrupt, coprocessor data operation and register transfer (formats 13 to 15). -/
def decodeCpSwi (c : Cond) (w : Word) : Decoded :=
  match w.getLsbD 24, w.getLsbD 4, w.getLsbD 20 with
  | true, _, _ => .ok (.swi c (w.extractLsb' 0 24))
  | false, false, _ =>
    .ok (.cdp c (w.extractLsb' 20 4) (fieldRn w) (fieldRd w) (fieldRs w) (w.extractLsb' 5 3) (fieldRm w))
  | false, true, false =>
    .ok (.mcr c (w.extractLsb' 21 3) (fieldRn w) (fieldRd w) (fieldRs w) (w.extractLsb' 5 3) (fieldRm w))
  | false, true, true =>
    .ok (.mrc c (w.extractLsb' 21 3) (fieldRn w) (fieldRd w) (fieldRs w) (w.extractLsb' 5 3) (fieldRm w))

/-- w[27:25] = 000 (R145's first case). -/
def decodeReg (c : Cond) (w : Word) : Decoded :=
  match w.getLsbD 7, w.getLsbD 4 with
  | true, true => if !w.getLsbD 6 && !w.getLsbD 5 then decodeMulSwap c w else decodeHalf c w
  | _, b4 =>
    if w.getLsbD 24 && !w.getLsbD 23 && !w.getLsbD 20 then decodeControl c w
    else if b4 then decodeDpShReg c w else decodeDpShImm c w

/-- w[27:25] = 001. -/
def decodeImm (c : Cond) (w : Word) : Decoded :=
  if w.getLsbD 24 && !w.getLsbD 23 && !w.getLsbD 20 then
    if w.getLsbD 21 && w.extractLsb' 12 4 == 0b1111#4 then .ok (.msrImm c (w.getLsbD 22) (fieldRn w) (fieldImm w))
    else .error .unallocatedArm
  else decodeDpImm c w

/-- The instruction of an ARM word (R144, R145). -/
def decodeArm (w : Word) : Decoded :=
  match Cond.ofBits (w.extractLsb' 28 4) with
  | none => .error .reservedCondition
  | some c =>
    match w.getLsbD 27, w.getLsbD 26, w.getLsbD 25 with
    | false, false, false => decodeReg c w
    | false, false, true => decodeImm c w
    | false, true, false => decodeSingle c w
    | false, true, true =>
      if w.getLsbD 4 then .ok (.undef c (w.extractLsb' 5 20) (w.extractLsb' 0 4)) else decodeSingle c w
    | true, false, false => decodeBlock c w
    | true, false, true =>
      if w.getLsbD 24 then .ok (.bl c (w.extractLsb' 0 24)) else .ok (.b c (w.extractLsb' 0 24))
    | true, true, false => decodeCpTransfer c w
    | true, true, true => decodeCpSwi c w

/-! ## Thumb decode (R150, R151) -/

/-- Rd or Rd/Hd = h[2:0]. -/
def thumbRd (h : Half) : LoReg := h.extractLsb' 0 3

/-- Rs or Rb = h[5:3]. -/
def thumbRs (h : Half) : LoReg := h.extractLsb' 3 3

/-- Rn or Ro = h[8:6]. -/
def thumbRn (h : Half) : LoReg := h.extractLsb' 6 3

/-- Rd or Rb = h[10:8] (formats 3, 6, 11, 12, 15). -/
def thumbR8 (h : Half) : LoReg := h.extractLsb' 8 3

/-- h[7:0]. -/
def thumbImm8 (h : Half) : BitVec 8 := h.extractLsb' 0 8

/-- Offset5 = h[10:6]. -/
def thumbImm5 (h : Half) : BitVec 5 := h.extractLsb' 6 5

/-- Offset11 = h[10:0]. -/
def thumbImm11 (h : Half) : BitVec 11 := h.extractLsb' 0 11

/-- h[15:13] = 000: formats 1 and 2. -/
def decodeShiftAdd (h : Half) : Decoded :=
  match h.getLsbD 12, h.getLsbD 11 with
  | false, false => .ok (.tLslImm (thumbImm5 h) (thumbRs h) (thumbRd h))
  | false, true => .ok (.tLsrImm (thumbImm5 h) (thumbRs h) (thumbRd h))
  | true, false => .ok (.tAsrImm (thumbImm5 h) (thumbRs h) (thumbRd h))
  | true, true =>
    match h.getLsbD 10, h.getLsbD 9 with
    | false, false => .ok (.tAddReg (thumbRn h) (thumbRs h) (thumbRd h))
    | false, true => .ok (.tSubReg (thumbRn h) (thumbRs h) (thumbRd h))
    | true, false => .ok (.tAddImm3 (thumbRn h) (thumbRs h) (thumbRd h))
    | true, true => .ok (.tSubImm3 (thumbRn h) (thumbRs h) (thumbRd h))

/-- h[15:13] = 001: format 3. -/
def decodeImmThumb (h : Half) : Decoded :=
  match h.getLsbD 12, h.getLsbD 11 with
  | false, false => .ok (.tMovImm (thumbR8 h) (thumbImm8 h))
  | false, true => .ok (.tCmpImm (thumbR8 h) (thumbImm8 h))
  | true, false => .ok (.tAddImm8 (thumbR8 h) (thumbImm8 h))
  | true, true => .ok (.tSubImm8 (thumbR8 h) (thumbImm8 h))

/-- Format 4, by Op = h[9:6]. -/
def decodeAluThumb (h : Half) : Decoded :=
  let rs := thumbRs h
  let rd := thumbRd h
  match (h.extractLsb' 6 4).toNat with
  | 0 => .ok (.tAnd rs rd)
  | 1 => .ok (.tEor rs rd)
  | 2 => .ok (.tLslReg rs rd)
  | 3 => .ok (.tLsrReg rs rd)
  | 4 => .ok (.tAsrReg rs rd)
  | 5 => .ok (.tAdc rs rd)
  | 6 => .ok (.tSbc rs rd)
  | 7 => .ok (.tRorReg rs rd)
  | 8 => .ok (.tTst rs rd)
  | 9 => .ok (.tNeg rs rd)
  | 10 => .ok (.tCmpReg rs rd)
  | 11 => .ok (.tCmn rs rd)
  | 12 => .ok (.tOrr rs rd)
  | 13 => .ok (.tMul rs rd)
  | 14 => .ok (.tBic rs rd)
  | _ => .ok (.tMvn rs rd)

/-- Format 5: Op = h[9:8], H1 = h[7], H2 = h[6]; the full source number is `H2 : Rs`. -/
def decodeHi (h : Half) : Decoded :=
  let rd := thumbRd h
  let rs : Reg := h.extractLsb' 3 4
  let hs := thumbRs h
  match h.getLsbD 9, h.getLsbD 8, h.getLsbD 7, h.getLsbD 6 with
  | false, false, true, _ => .ok (.tAddHd rd rs)
  | false, false, false, true => .ok (.tAddHs rd hs)
  | false, true, true, _ => .ok (.tCmpHd rd rs)
  | false, true, false, true => .ok (.tCmpHs rd hs)
  | true, false, true, _ => .ok (.tMovHd rd rs)
  | true, false, false, true => .ok (.tMovHs rd hs)
  | true, true, false, _ => if rd == 0 then .ok (.tBx rs) else .error .unallocatedThumb
  | _, _, _, _ => .error .unallocatedThumb

/-- h[15:13] = 010: formats 4 to 8. -/
def decodeRegThumb (h : Half) : Decoded :=
  match h.getLsbD 12, h.getLsbD 11, h.getLsbD 10, h.getLsbD 9 with
  | false, false, false, _ => decodeAluThumb h
  | false, false, true, _ => decodeHi h
  | false, true, _, _ => .ok (.tLdrPc (thumbR8 h) (thumbImm8 h))
  | true, false, false, false => .ok (.tStrReg (thumbRn h) (thumbRs h) (thumbRd h))
  | true, false, true, false => .ok (.tStrbReg (thumbRn h) (thumbRs h) (thumbRd h))
  | true, true, false, false => .ok (.tLdrReg (thumbRn h) (thumbRs h) (thumbRd h))
  | true, true, true, false => .ok (.tLdrbReg (thumbRn h) (thumbRs h) (thumbRd h))
  | true, false, false, true => .ok (.tStrhReg (thumbRn h) (thumbRs h) (thumbRd h))
  | true, true, false, true => .ok (.tLdrhReg (thumbRn h) (thumbRs h) (thumbRd h))
  | true, false, true, true => .ok (.tLdsbReg (thumbRn h) (thumbRs h) (thumbRd h))
  | true, true, true, true => .ok (.tLdshReg (thumbRn h) (thumbRs h) (thumbRd h))

/-- h[15:13] = 011: format 9, by B = h[12] and L = h[11]. -/
def decodeOffThumb (h : Half) : Decoded :=
  match h.getLsbD 12, h.getLsbD 11 with
  | false, false => .ok (.tStrImm (thumbImm5 h) (thumbRs h) (thumbRd h))
  | false, true => .ok (.tLdrImm (thumbImm5 h) (thumbRs h) (thumbRd h))
  | true, false => .ok (.tStrbImm (thumbImm5 h) (thumbRs h) (thumbRd h))
  | true, true => .ok (.tLdrbImm (thumbImm5 h) (thumbRs h) (thumbRd h))

/-- h[15:13] = 100: formats 10 and 11. -/
def decodeHalfSp (h : Half) : Decoded :=
  match h.getLsbD 12, h.getLsbD 11 with
  | false, false => .ok (.tStrhImm (thumbImm5 h) (thumbRs h) (thumbRd h))
  | false, true => .ok (.tLdrhImm (thumbImm5 h) (thumbRs h) (thumbRd h))
  | true, false => .ok (.tStrSp (thumbR8 h) (thumbImm8 h))
  | true, true => .ok (.tLdrSp (thumbR8 h) (thumbImm8 h))

/-- h[15:12] = 1011: formats 13 and 14, and the holes. -/
def decodeMiscThumb (h : Half) : Decoded :=
  match h.getLsbD 11, h.getLsbD 10, h.getLsbD 9, h.getLsbD 8 with
  | false, false, false, false =>
    if h.getLsbD 7 then .ok (.tSubSpImm (h.extractLsb' 0 7)) else .ok (.tAddSpImm (h.extractLsb' 0 7))
  | false, true, false, r => .ok (.tPush r (thumbImm8 h))
  | true, true, false, r => .ok (.tPop r (thumbImm8 h))
  | _, _, _, _ => .error .unallocatedThumb

/-- h[15:12] = 1101: format 16, by Cond = h[11:8], and format 17; Cond = 1110 is unallocated. -/
def decodeCondThumb (h : Half) : Decoded :=
  let off := thumbImm8 h
  match (h.extractLsb' 8 4).toNat with
  | 0 => .ok (.tBeq off)
  | 1 => .ok (.tBne off)
  | 2 => .ok (.tBcs off)
  | 3 => .ok (.tBcc off)
  | 4 => .ok (.tBmi off)
  | 5 => .ok (.tBpl off)
  | 6 => .ok (.tBvs off)
  | 7 => .ok (.tBvc off)
  | 8 => .ok (.tBhi off)
  | 9 => .ok (.tBls off)
  | 10 => .ok (.tBge off)
  | 11 => .ok (.tBlt off)
  | 12 => .ok (.tBgt off)
  | 13 => .ok (.tBle off)
  | 14 => .error .unallocatedThumb
  | _ => .ok (.tSwi off)

/-- The instruction of a Thumb halfword (R151). -/
def decodeThumb (h : Half) : Decoded :=
  match h.getLsbD 15, h.getLsbD 14, h.getLsbD 13 with
  | false, false, false => decodeShiftAdd h
  | false, false, true => decodeImmThumb h
  | false, true, false => decodeRegThumb h
  | false, true, true => decodeOffThumb h
  | true, false, false => decodeHalfSp h
  | true, false, true =>
    match h.getLsbD 12, h.getLsbD 11 with
    | false, false => .ok (.tAddPc (thumbR8 h) (thumbImm8 h))
    | false, true => .ok (.tAddSp (thumbR8 h) (thumbImm8 h))
    | true, _ => decodeMiscThumb h
  | true, true, false =>
    match h.getLsbD 12, h.getLsbD 11 with
    | false, false => .ok (.tStmia (thumbR8 h) (thumbImm8 h))
    | false, true => .ok (.tLdmia (thumbR8 h) (thumbImm8 h))
    | true, _ => decodeCondThumb h
  | true, true, true =>
    match h.getLsbD 12, h.getLsbD 11 with
    | false, false => .ok (.tB (thumbImm11 h))
    | false, true => .error .unallocatedThumb
    | true, false => .ok (.tBlHi (thumbImm11 h))
    | true, true => .ok (.tBlLo (thumbImm11 h))

/-! ## Bytes (20_memory R79, R80) -/

/-- Four bytes, the first at the lowest address, as a word in the byte order. -/
def joinWord (big : Bool) (b0 b1 b2 b3 : Byte) : Word :=
  if big then b0 ++ b1 ++ b2 ++ b3 else b3 ++ b2 ++ b1 ++ b0

/-- Two bytes, the first at the lower address, as a halfword in the byte order. -/
def joinHalf (big : Bool) (b0 b1 : Byte) : Half := if big then b0 ++ b1 else b1 ++ b0

/-- The first instruction of a list of bytes and the bytes after it: ARM (32 bits) or Thumb (16 bits) as the state says (R140). -/
def decodeBytes (big thumb : Bool) : List Byte → Except DecodeError (Instr × List Byte)
  | b0 :: b1 :: rest =>
    if thumb then
      match decodeThumb (joinHalf big b0 b1) with
      | .ok i => .ok (i, rest)
      | .error e => .error e
    else
      match rest with
      | b2 :: b3 :: rest' =>
        match decodeArm (joinWord big b0 b1 b2 b3) with
        | .ok i => .ok (i, rest')
        | .error e => .error e
      | _ => .error .truncated
  | _ => .error .truncated

/-- Byte `k` of a number, byte 0 the least significant. -/
def byteOf (w k : Nat) : Byte := BitVec.ofNat 8 (w / 2 ^ (8 * k))

/-- The instruction of a table word: its bytes as a little-endian memory holds them, given to the decoder. -/
def decodeTableWord (nbits w : Nat) : Option Instr :=
  let v := w % 2 ^ nbits
  let bytes := if nbits ≤ 16 then [byteOf v 0, byteOf v 1] else [byteOf v 0, byteOf v 1, byteOf v 2, byteOf v 3]
  match decodeBytes false (nbits ≤ 16) bytes with
  | .ok (i, _) => some i
  | .error _ => none

/-! ## The encoder: the formats of R142 and R150 as concatenations, the most significant field first -/

/-- An encoded instruction. -/
inductive Encoding where
  | arm (w : Word)
  | thumb (h : Half)
  deriving DecidableEq, Repr

/-- One bit. -/
abbrev bit1 (b : Bool) : BitVec 1 := BitVec.ofBool b

/-- Format 1, immediate operand. -/
def encDpImm (c : Cond) (op : BitVec 4) (s : Bool) (rn rd : Reg) (o : RotImm) : Encoding :=
  .arm (c.bits ++ 0b001#3 ++ op ++ bit1 s ++ rn ++ rd ++ o.rotate ++ o.imm8)

/-- Format 1, shift by immediate. -/
def encDpShImm (c : Cond) (op : BitVec 4) (s : Bool) (rn rd : Reg) (o : ShImm) : Encoding :=
  .arm (c.bits ++ 0b000#3 ++ op ++ bit1 s ++ rn ++ rd ++ o.amount ++ o.type.bits ++ 0#1 ++ o.rm)

/-- Format 1, shift by register. -/
def encDpShReg (c : Cond) (op : BitVec 4) (s : Bool) (rn rd : Reg) (o : ShReg) : Encoding :=
  .arm (c.bits ++ 0b000#3 ++ op ++ bit1 s ++ rn ++ rd ++ o.rs ++ 0#1 ++ o.type.bits ++ 1#1 ++ o.rm)

/-- Formats 2, 3 and 4: bits [27:20], two registers, Rs or 0000, 1001, Rm. -/
def encMul (c : Cond) (top : BitVec 7) (s : Bool) (f19 f15 rs rm : Reg) : Encoding :=
  .arm (c.bits ++ top ++ bit1 s ++ f19 ++ f15 ++ rs ++ 0b1001#4 ++ rm)

/-- Format 6. -/
def encHalfReg (c : Cond) (p u w l : Bool) (sh : BitVec 2) (rn rd rm : Reg) : Encoding :=
  .arm (c.bits ++ 0b000#3 ++ bit1 p ++ bit1 u ++ 0#1 ++ bit1 w ++ bit1 l ++ rn ++ rd ++ 0#4 ++ 1#1 ++ sh ++ 1#1 ++ rm)

/-- Format 7. -/
def encHalfImm (c : Cond) (p u w l : Bool) (sh : BitVec 2) (rn rd : Reg) (imm : BitVec 8) : Encoding :=
  .arm (c.bits ++ 0b000#3 ++ bit1 p ++ bit1 u ++ 1#1 ++ bit1 w ++ bit1 l ++ rn ++ rd ++ imm.extractLsb' 4 4 ++ 1#1 ++ sh
    ++ 1#1 ++ imm.extractLsb' 0 4)

/-- Format 8, immediate offset. -/
def encSingleImm (c : Cond) (p u b w l : Bool) (rn rd : Reg) (imm : BitVec 12) : Encoding :=
  .arm (c.bits ++ 0b010#3 ++ bit1 p ++ bit1 u ++ bit1 b ++ bit1 w ++ bit1 l ++ rn ++ rd ++ imm)

/-- Format 8, register offset. -/
def encSingleReg (c : Cond) (p u b w l : Bool) (rn rd : Reg) (o : ShImm) : Encoding :=
  .arm (c.bits ++ 0b011#3 ++ bit1 p ++ bit1 u ++ bit1 b ++ bit1 w ++ bit1 l ++ rn ++ rd ++ o.amount ++ o.type.bits ++ 0#1
    ++ o.rm)

/-- Format 10. -/
def encBlock (c : Cond) (p u s w l : Bool) (rn : Reg) (b15 : Bool) (list : BitVec 15) : Encoding :=
  .arm (c.bits ++ 0b100#3 ++ bit1 p ++ bit1 u ++ bit1 s ++ bit1 w ++ bit1 l ++ rn ++ bit1 b15 ++ list)

/-- Format 12. -/
def encCpTransfer (c : Cond) (p u n w l : Bool) (rn crd cp : BitVec 4) (imm : BitVec 8) : Encoding :=
  .arm (c.bits ++ 0b110#3 ++ bit1 p ++ bit1 u ++ bit1 n ++ bit1 w ++ bit1 l ++ rn ++ crd ++ cp ++ imm)

/-- Format 14. -/
def encCpRegister (c : Cond) (opc1 : BitVec 3) (l : Bool) (crn rd cp : BitVec 4) (opc2 : BitVec 3) (crm : BitVec 4) :
    Encoding :=
  .arm (c.bits ++ 0b1110#4 ++ opc1 ++ bit1 l ++ crn ++ rd ++ cp ++ opc2 ++ 1#1 ++ crm)

/-- Thumb formats 1, 9 and 10: five bits, a 5-bit offset, two registers. -/
def encT5 (top : BitVec 5) (imm : BitVec 5) (rs rd : LoReg) : Encoding := .thumb (top ++ imm ++ rs ++ rd)

/-- Thumb formats 2, 7 and 8: seven bits and three 3-bit fields. -/
def encT3 (top : BitVec 7) (f8 rs rd : BitVec 3) : Encoding := .thumb (top ++ f8 ++ rs ++ rd)

/-- Thumb formats 3, 6, 11, 12 and 15: five bits, a register, eight bits. -/
def encT8 (top : BitVec 5) (rd : LoReg) (imm : BitVec 8) : Encoding := .thumb (top ++ rd ++ imm)

/-- Thumb format 4: ten bits and two registers. -/
def encT4 (op : BitVec 4) (rs rd : LoReg) : Encoding := .thumb (0b010000#6 ++ op ++ rs ++ rd)

/-- Thumb format 5: Op, H1, `H2 : Rs`, Rd. -/
def encTHi (op : BitVec 2) (h1 : Bool) (rs : Reg) (rd : LoReg) : Encoding := .thumb (0b010001#6 ++ op ++ bit1 h1 ++ rs ++ rd)

/-- Thumb formats 14, 16 and 17: eight bits and eight bits. -/
def encTByte (top : BitVec 8) (imm : BitVec 8) : Encoding := .thumb (top ++ imm)

/-- Thumb formats 18 and 19: five bits and eleven bits. -/
def encT11 (top : BitVec 5) (imm : BitVec 11) : Encoding := .thumb (top ++ imm)

/-- The words of an instruction. -/
def encode : Instr → Encoding
  | .b c off => .arm (c.bits ++ 0b1010#4 ++ off)
  | .bl c off => .arm (c.bits ++ 0b1011#4 ++ off)
  | .bx c rn => .arm (c.bits ++ 0x12FFF1#24 ++ rn)
  | .andImm c sf rn rd o => encDpImm c 0b0000#4 sf rn rd o
  | .andShImm c sf rn rd o => encDpShImm c 0b0000#4 sf rn rd o
  | .andShReg c sf rn rd o => encDpShReg c 0b0000#4 sf rn rd o
  | .eorImm c sf rn rd o => encDpImm c 0b0001#4 sf rn rd o
  | .eorShImm c sf rn rd o => encDpShImm c 0b0001#4 sf rn rd o
  | .eorShReg c sf rn rd o => encDpShReg c 0b0001#4 sf rn rd o
  | .subImm c sf rn rd o => encDpImm c 0b0010#4 sf rn rd o
  | .subShImm c sf rn rd o => encDpShImm c 0b0010#4 sf rn rd o
  | .subShReg c sf rn rd o => encDpShReg c 0b0010#4 sf rn rd o
  | .rsbImm c sf rn rd o => encDpImm c 0b0011#4 sf rn rd o
  | .rsbShImm c sf rn rd o => encDpShImm c 0b0011#4 sf rn rd o
  | .rsbShReg c sf rn rd o => encDpShReg c 0b0011#4 sf rn rd o
  | .addImm c sf rn rd o => encDpImm c 0b0100#4 sf rn rd o
  | .addShImm c sf rn rd o => encDpShImm c 0b0100#4 sf rn rd o
  | .addShReg c sf rn rd o => encDpShReg c 0b0100#4 sf rn rd o
  | .adcImm c sf rn rd o => encDpImm c 0b0101#4 sf rn rd o
  | .adcShImm c sf rn rd o => encDpShImm c 0b0101#4 sf rn rd o
  | .adcShReg c sf rn rd o => encDpShReg c 0b0101#4 sf rn rd o
  | .sbcImm c sf rn rd o => encDpImm c 0b0110#4 sf rn rd o
  | .sbcShImm c sf rn rd o => encDpShImm c 0b0110#4 sf rn rd o
  | .sbcShReg c sf rn rd o => encDpShReg c 0b0110#4 sf rn rd o
  | .rscImm c sf rn rd o => encDpImm c 0b0111#4 sf rn rd o
  | .rscShImm c sf rn rd o => encDpShImm c 0b0111#4 sf rn rd o
  | .rscShReg c sf rn rd o => encDpShReg c 0b0111#4 sf rn rd o
  | .tstImm c rn o => encDpImm c 0b1000#4 true rn 0 o
  | .tstShImm c rn o => encDpShImm c 0b1000#4 true rn 0 o
  | .tstShReg c rn o => encDpShReg c 0b1000#4 true rn 0 o
  | .teqImm c rn o => encDpImm c 0b1001#4 true rn 0 o
  | .teqShImm c rn o => encDpShImm c 0b1001#4 true rn 0 o
  | .teqShReg c rn o => encDpShReg c 0b1001#4 true rn 0 o
  | .cmpImm c rn o => encDpImm c 0b1010#4 true rn 0 o
  | .cmpShImm c rn o => encDpShImm c 0b1010#4 true rn 0 o
  | .cmpShReg c rn o => encDpShReg c 0b1010#4 true rn 0 o
  | .cmnImm c rn o => encDpImm c 0b1011#4 true rn 0 o
  | .cmnShImm c rn o => encDpShImm c 0b1011#4 true rn 0 o
  | .cmnShReg c rn o => encDpShReg c 0b1011#4 true rn 0 o
  | .orrImm c sf rn rd o => encDpImm c 0b1100#4 sf rn rd o
  | .orrShImm c sf rn rd o => encDpShImm c 0b1100#4 sf rn rd o
  | .orrShReg c sf rn rd o => encDpShReg c 0b1100#4 sf rn rd o
  | .movImm c sf rd o => encDpImm c 0b1101#4 sf 0 rd o
  | .movShImm c sf rd o => encDpShImm c 0b1101#4 sf 0 rd o
  | .movShReg c sf rd o => encDpShReg c 0b1101#4 sf 0 rd o
  | .bicImm c sf rn rd o => encDpImm c 0b1110#4 sf rn rd o
  | .bicShImm c sf rn rd o => encDpShImm c 0b1110#4 sf rn rd o
  | .bicShReg c sf rn rd o => encDpShReg c 0b1110#4 sf rn rd o
  | .mvnImm c sf rd o => encDpImm c 0b1111#4 sf 0 rd o
  | .mvnShImm c sf rd o => encDpShImm c 0b1111#4 sf 0 rd o
  | .mvnShReg c sf rd o => encDpShReg c 0b1111#4 sf 0 rd o
  | .mrs c spsr rd => .arm (c.bits ++ 0b00010#5 ++ bit1 spsr ++ 0b00#2 ++ 0b1111#4 ++ rd ++ 0#12)
  | .msrReg c spsr mask rm => .arm (c.bits ++ 0b00010#5 ++ bit1 spsr ++ 0b10#2 ++ mask ++ 0b1111#4 ++ 0#8 ++ rm)
  | .msrImm c spsr mask o => .arm (c.bits ++ 0b00110#5 ++ bit1 spsr ++ 0b10#2 ++ mask ++ 0b1111#4 ++ o.rotate ++ o.imm8)
  | .mul c sf rd rs rm => encMul c 0b0000000#7 sf rd 0 rs rm
  | .mla c sf rd rn rs rm => encMul c 0b0000001#7 sf rd rn rs rm
  | .umull c sf hi lo rs rm => encMul c 0b0000100#7 sf hi lo rs rm
  | .umlal c sf hi lo rs rm => encMul c 0b0000101#7 sf hi lo rs rm
  | .smull c sf hi lo rs rm => encMul c 0b0000110#7 sf hi lo rs rm
  | .smlal c sf hi lo rs rm => encMul c 0b0000111#7 sf hi lo rs rm
  | .swp c rn rd rm => encMul c 0b0001000#7 false rn rd 0 rm
  | .swpb c rn rd rm => encMul c 0b0001010#7 false rn rd 0 rm
  | .strhReg c p u w rn rd rm => encHalfReg c p u w false 0b01#2 rn rd rm
  | .strhImm c p u w rn rd imm => encHalfImm c p u w false 0b01#2 rn rd imm
  | .ldrhReg c p u w rn rd rm => encHalfReg c p u w true 0b01#2 rn rd rm
  | .ldrhImm c p u w rn rd imm => encHalfImm c p u w true 0b01#2 rn rd imm
  | .ldrsbReg c p u w rn rd rm => encHalfReg c p u w true 0b10#2 rn rd rm
  | .ldrsbImm c p u w rn rd imm => encHalfImm c p u w true 0b10#2 rn rd imm
  | .ldrshReg c p u w rn rd rm => encHalfReg c p u w true 0b11#2 rn rd rm
  | .ldrshImm c p u w rn rd imm => encHalfImm c p u w true 0b11#2 rn rd imm
  | .strImmPre c u w rn rd imm => encSingleImm c true u false w false rn rd imm
  | .strImmPost c u rn rd imm => encSingleImm c false u false false false rn rd imm
  | .strtImm c u rn rd imm => encSingleImm c false u false true false rn rd imm
  | .strRegPre c u w rn rd o => encSingleReg c true u false w false rn rd o
  | .strRegPost c u rn rd o => encSingleReg c false u false false false rn rd o
  | .strtReg c u rn rd o => encSingleReg c false u false true false rn rd o
  | .ldrImmPre c u w rn rd imm => encSingleImm c true u false w true rn rd imm
  | .ldrImmPost c u rn rd imm => encSingleImm c false u false false true rn rd imm
  | .ldrtImm c u rn rd imm => encSingleImm c false u false true true rn rd imm
  | .ldrRegPre c u w rn rd o => encSingleReg c true u false w true rn rd o
  | .ldrRegPost c u rn rd o => encSingleReg c false u false false true rn rd o
  | .ldrtReg c u rn rd o => encSingleReg c false u false true true rn rd o
  | .strbImmPre c u w rn rd imm => encSingleImm c true u true w false rn rd imm
  | .strbImmPost c u rn rd imm => encSingleImm c false u true false false rn rd imm
  | .strbtImm c u rn rd imm => encSingleImm c false u true true false rn rd imm
  | .strbRegPre c u w rn rd o => encSingleReg c true u true w false rn rd o
  | .strbRegPost c u rn rd o => encSingleReg c false u true false false rn rd o
  | .strbtReg c u rn rd o => encSingleReg c false u true true false rn rd o
  | .ldrbImmPre c u w rn rd imm => encSingleImm c true u true w true rn rd imm
  | .ldrbImmPost c u rn rd imm => encSingleImm c false u true false true rn rd imm
  | .ldrbtImm c u rn rd imm => encSingleImm c false u true true true rn rd imm
  | .ldrbRegPre c u w rn rd o => encSingleReg c true u true w true rn rd o
  | .ldrbRegPost c u rn rd o => encSingleReg c false u true false true rn rd o
  | .ldrbtReg c u rn rd o => encSingleReg c false u true true true rn rd o
  | .undef c hi lo => .arm (c.bits ++ 0b011#3 ++ hi ++ 1#1 ++ lo)
  | .ldm c p u w rn list => encBlock c p u false w true rn (list.getLsbD 15) (list.extractLsb' 0 15)
  | .ldmRet c p u w rn list => encBlock c p u true w true rn true list
  | .ldmUser c p u w rn list => encBlock c p u true w true rn false list
  | .stm c p u w rn list => encBlock c p u false w false rn (list.getLsbD 15) (list.extractLsb' 0 15)
  | .stmUser c p u w rn list => encBlock c p u true w false rn (list.getLsbD 15) (list.extractLsb' 0 15)
  | .stc c p u n w rn crd cp imm => encCpTransfer c p u n w false rn crd cp imm
  | .ldc c p u n w rn crd cp imm => encCpTransfer c p u n w true rn crd cp imm
  | .cdp c opc1 crn crd cp opc2 crm => .arm (c.bits ++ 0b1110#4 ++ opc1 ++ crn ++ crd ++ cp ++ opc2 ++ 0#1 ++ crm)
  | .mcr c opc1 crn rd cp opc2 crm => encCpRegister c opc1 false crn rd cp opc2 crm
  | .mrc c opc1 crn rd cp opc2 crm => encCpRegister c opc1 true crn rd cp opc2 crm
  | .swi c imm => .arm (c.bits ++ 0b1111#4 ++ imm)
  | .tLslImm imm rs rd => encT5 0b00000#5 imm rs rd
  | .tLsrImm imm rs rd => encT5 0b00001#5 imm rs rd
  | .tAsrImm imm rs rd => encT5 0b00010#5 imm rs rd
  | .tAddReg rn rs rd => encT3 0b0001100#7 rn rs rd
  | .tSubReg rn rs rd => encT3 0b0001101#7 rn rs rd
  | .tAddImm3 imm rs rd => encT3 0b0001110#7 imm rs rd
  | .tSubImm3 imm rs rd => encT3 0b0001111#7 imm rs rd
  | .tMovImm rd imm => encT8 0b00100#5 rd imm
  | .tCmpImm rd imm => encT8 0b00101#5 rd imm
  | .tAddImm8 rd imm => encT8 0b00110#5 rd imm
  | .tSubImm8 rd imm => encT8 0b00111#5 rd imm
  | .tAnd rs rd => encT4 0b0000#4 rs rd
  | .tEor rs rd => encT4 0b0001#4 rs rd
  | .tLslReg rs rd => encT4 0b0010#4 rs rd
  | .tLsrReg rs rd => encT4 0b0011#4 rs rd
  | .tAsrReg rs rd => encT4 0b0100#4 rs rd
  | .tAdc rs rd => encT4 0b0101#4 rs rd
  | .tSbc rs rd => encT4 0b0110#4 rs rd
  | .tRorReg rs rd => encT4 0b0111#4 rs rd
  | .tTst rs rd => encT4 0b1000#4 rs rd
  | .tNeg rs rd => encT4 0b1001#4 rs rd
  | .tCmpReg rs rd => encT4 0b1010#4 rs rd
  | .tCmn rs rd => encT4 0b1011#4 rs rd
  | .tOrr rs rd => encT4 0b1100#4 rs rd
  | .tMul rs rd => encT4 0b1101#4 rs rd
  | .tBic rs rd => encT4 0b1110#4 rs rd
  | .tMvn rs rd => encT4 0b1111#4 rs rd
  | .tAddHd hd rs => encTHi 0b00#2 true rs hd
  | .tAddHs rd hs => encTHi 0b00#2 false (1#1 ++ hs) rd
  | .tCmpHd hd rs => encTHi 0b01#2 true rs hd
  | .tCmpHs rd hs => encTHi 0b01#2 false (1#1 ++ hs) rd
  | .tMovHd hd rs => encTHi 0b10#2 true rs hd
  | .tMovHs rd hs => encTHi 0b10#2 false (1#1 ++ hs) rd
  | .tBx rs => encTHi 0b11#2 false rs 0
  | .tLdrPc rd imm => encT8 0b01001#5 rd imm
  | .tStrReg ro rb rd => encT3 0b0101000#7 ro rb rd
  | .tStrbReg ro rb rd => encT3 0b0101010#7 ro rb rd
  | .tLdrReg ro rb rd => encT3 0b0101100#7 ro rb rd
  | .tLdrbReg ro rb rd => encT3 0b0101110#7 ro rb rd
  | .tStrhReg ro rb rd => encT3 0b0101001#7 ro rb rd
  | .tLdrhReg ro rb rd => encT3 0b0101101#7 ro rb rd
  | .tLdsbReg ro rb rd => encT3 0b0101011#7 ro rb rd
  | .tLdshReg ro rb rd => encT3 0b0101111#7 ro rb rd
  | .tStrImm imm rb rd => encT5 0b01100#5 imm rb rd
  | .tLdrImm imm rb rd => encT5 0b01101#5 imm rb rd
  | .tStrbImm imm rb rd => encT5 0b01110#5 imm rb rd
  | .tLdrbImm imm rb rd => encT5 0b01111#5 imm rb rd
  | .tStrhImm imm rb rd => encT5 0b10000#5 imm rb rd
  | .tLdrhImm imm rb rd => encT5 0b10001#5 imm rb rd
  | .tStrSp rd imm => encT8 0b10010#5 rd imm
  | .tLdrSp rd imm => encT8 0b10011#5 rd imm
  | .tAddPc rd imm => encT8 0b10100#5 rd imm
  | .tAddSp rd imm => encT8 0b10101#5 rd imm
  | .tAddSpImm imm => .thumb (0b10110000#8 ++ 0#1 ++ imm)
  | .tSubSpImm imm => .thumb (0b10110000#8 ++ 1#1 ++ imm)
  | .tPush r list => .thumb (0b1011010#7 ++ bit1 r ++ list)
  | .tPop r list => .thumb (0b1011110#7 ++ bit1 r ++ list)
  | .tStmia rb list => encT8 0b11000#5 rb list
  | .tLdmia rb list => encT8 0b11001#5 rb list
  | .tBeq off => encTByte 0b11010000#8 off
  | .tBne off => encTByte 0b11010001#8 off
  | .tBcs off => encTByte 0b11010010#8 off
  | .tBcc off => encTByte 0b11010011#8 off
  | .tBmi off => encTByte 0b11010100#8 off
  | .tBpl off => encTByte 0b11010101#8 off
  | .tBvs off => encTByte 0b11010110#8 off
  | .tBvc off => encTByte 0b11010111#8 off
  | .tBhi off => encTByte 0b11011000#8 off
  | .tBls off => encTByte 0b11011001#8 off
  | .tBge off => encTByte 0b11011010#8 off
  | .tBlt off => encTByte 0b11011011#8 off
  | .tBgt off => encTByte 0b11011100#8 off
  | .tBle off => encTByte 0b11011101#8 off
  | .tSwi imm => encTByte 0b11011111#8 imm
  | .tB off => encT11 0b11100#5 off
  | .tBlHi off => encT11 0b11110#5 off
  | .tBlLo off => encT11 0b11111#5 off

/-- The instruction of an encoded word. -/
def decode : Encoding → Decoded
  | .arm w => decodeArm w
  | .thumb h => decodeThumb h

/-- The bytes of an encoded word as memory holds them, the lowest address first (20_memory R79, R80). -/
def Encoding.bytes (big : Bool) : Encoding → List Byte
  | .arm w =>
    let le := [w.extractLsb' 0 8, w.extractLsb' 8 8, w.extractLsb' 16 8, w.extractLsb' 24 8]
    if big then le.reverse else le
  | .thumb h =>
    let le := [h.extractLsb' 0 8, h.extractLsb' 8 8]
    if big then le.reverse else le

/-- The word or halfword, right-justified, as the opcode table numbers its bits. -/
def Encoding.bits : Encoding → Nat
  | .arm w => w.toNat
  | .thumb h => h.toNat

end Sys2Proof
end

