-- ==== Sys2Proof/Config.lean ====
section
/-! DEFINITION. What is fixed for the machine and is not state: the free values (the spec's "draw", 00_scope R16 and
92_eei_decisions D14), the byte an unlisted memory address reads as, and the value the model names for a register
whose reset value the spec leaves unspecified. -/

namespace Sys2Proof.Config

/-- The free BIT of draw number `n` (log entry 8): a flag the spec calls meaningless (43_arm_multiply R251 to R256,
47_thumb_alu R365), or the choice between the old and the new contents of a prefetched slot (20_memory R128). No body. -/
opaque freeBit : Nat → Bool

/-- The free WORD of draw number `n` (log entry 8): a register of an aborted LDM (45_arm_block_swap R309), R14_svc and
SPSR_svc after a reset (70_reset_and_hazards R522), a read of a device region (92_eei_decisions D4). No body. -/
opaque freeWord : Nat → BitVec 32

/-- What an unlisted byte of memory reads as. DESIGN CHOICE (log entry 3), unsafe: the spec gives memory no contents. -/
def unlistedByte : BitVec 8 := 0x00

/-- The value State.reset gives a register or field that 10_state R60 calls unspecified. DESIGN CHOICE (log entry 2), unsafe. -/
def resetWord : BitVec 32 := 0x00000000

end Sys2Proof.Config
end

