-- ==== Sys2Proof/Machine/Bits.lean ====
section
/-! DEFINITION. Bit-field helpers that no rule of its own names: widening a Thumb register field, register lists,
rotation, and the masks and alignment tests of an address. -/

namespace Sys2Proof.Machine

/-- A Thumb 3-bit register field as a register number: R0 to R7 (10_state R25). -/
def lo (r : LoReg) : Reg := 0#1 ++ r

/-- A Thumb 3-bit register field with its H bit set, `1 : Rd`: R8 to R15 (47_thumb_alu R375). -/
def hi (r : LoReg) : Reg := 1#1 ++ r

/-- The register numbers in ascending order. -/
def allRegs : List Reg := [0, 1, 2, 3, 4, 5, 6, 7, 8, 9, 10, 11, 12, 13, 14, 15]

/-- Bit i of a register list: Ri is transferred (30_encoding R149). -/
def inList {n : Nat} (list : BitVec n) (r : Reg) : Bool := list.getLsbD r.toNat

/-- The set registers of a list in ascending order (45_arm_block_swap R301). -/
def regsOf {n : Nat} (list : BitVec n) : List Reg := allRegs.filter (inList list)

/-- `r` is in the list and no lower-numbered register is: it is `r_0` (45_arm_block_swap R308). -/
def isLowest {n : Nat} (list : BitVec n) (r : Reg) : Bool := (regsOf list).head? == some r

/-- `v ROR n`, 0 ≤ n ≤ 31 (00_scope R9). -/
def ror (v : Word) (n : Nat) : Word := (v >>> n) ||| (v <<< (32 - n))

/-- `v AND 0xFFFFFFFC`. -/
def wordMask (v : Word) : Word := v &&& 0xFFFFFFFC

/-- `v AND 0xFFFFFFFE`. -/
def halfMask (v : Word) : Word := v &&& 0xFFFFFFFE

/-- Bits [1:0] are 00. -/
def wordAligned (v : Word) : Bool := v.extractLsb' 0 2 == 0#2

/-- Bit [0] is 0. -/
def halfAligned (v : Word) : Bool := v.extractLsb' 0 1 == 0#1

end Sys2Proof.Machine
end

