-- ==== Sys2Proof/Machine/Restrict.lean ====
section
/-! DEFINITION. The restrictions the rules put on an instruction's fields beyond its encoding, each UNPREDICTABLE when
broken and each with the treatment "model: refuse" (93_implementation_defined U6, U8, U11, U15, U20, U21, U24 to U27, U29 to
U32, U34; log entries 17, 19, 28). One function for each shape of instruction: none where every restriction holds. -/

namespace Sys2Proof.Machine

/-- Which kind of restriction is broken. -/
inductive Restriction where
  /-- R15 in a field where a rule forbids it (U6, U15, U20, U21, U24, U25, U29, U34). -/
  | usesPc
  /-- One register in two roles that must differ (U11, U26, U30, U31, U34). -/
  | clash
  /-- A block transfer of no register (U29). -/
  | emptyList
  /-- A W bit the form must not have (U27, U32). -/
  | writeBackForm
  /-- Coprocessor 14, the debug communications channel (U8, 46_arm_swi_coproc_undef R329). -/
  | debugChannel
  deriving DecidableEq, Repr

/-- R15 is among these registers. -/
def hasPc (rs : List Reg) : Bool := rs.contains 15

/-- The first broken check of a list, each check paired with what it breaks. -/
def firstBroken : List (Bool × Restriction) → Option Restriction
  | [] => none
  | (broken, why) :: rest => if broken then some why else firstBroken rest

/-- R15 must not be one of these registers (R194 BX, R204 and R206 register-specified shift, R241 MRS, R242 MSR). -/
def pcRule (rs : List Reg) : Option Restriction := firstBroken [(hasPc rs, .usesPc)]

/-- MUL and MLA (43_arm_multiply R258); `rs` lists the fields that are not Rd or Rm. -/
def mulRule (rd rm : Reg) (rs : List Reg) : Option Restriction :=
  firstBroken [(hasPc (rd :: rm :: rs), .usesPc), (rd == rm, .clash)]

/-- The long multiplies (R258): RdHi, RdLo and Rm are three different registers. -/
def mulLongRule (rdHi rdLo rs rm : Reg) : Option Restriction :=
  firstBroken [(hasPc [rdHi, rdLo, rs, rm], .usesPc), (rdHi == rdLo || rdHi == rm || rdLo == rm, .clash)]

/-- SWP and SWPB (45_arm_block_swap R312). -/
def swapRule (rn rd rm : Reg) : Option Restriction :=
  firstBroken [(hasPc [rn, rd, rm], .usesPc), (rn == rd || rn == rm, .clash)]

/-- Format 8, immediate offset (44_arm_load_store R273, R274); `pcOk`: Rd may be R15 (word LDR and STR only, R269, R271). -/
def singleImmRule (pcOk wb : Bool) (rn rd : Reg) : Option Restriction :=
  firstBroken [(!pcOk && rd == 15, .usesPc), (wb && rn == 15, .usesPc), (wb && rd == rn, .clash)]

/-- Format 8, register offset (R273, R274): Rm is not R15, and post-indexed Rm is not Rn. -/
def singleRegRule (pcOk post wb : Bool) (rn rd rm : Reg) : Option Restriction :=
  firstBroken [(rm == 15, .usesPc), (!pcOk && rd == 15, .usesPc), (wb && rn == 15, .usesPc),
    (wb && rd == rn, .clash), (post && rm == rn, .clash)]

/-- Formats 6 and 7, immediate offset (R280, R285). -/
def halfImmRule (p w : Bool) (rn rd : Reg) : Option Restriction :=
  firstBroken [(!p && w, .writeBackForm), (rd == 15, .usesPc), ((!p || w) && rn == 15, .usesPc),
    ((!p || w) && rd == rn, .clash)]

/-- Formats 6 and 7, register offset (R280, R285). -/
def halfRegRule (p w : Bool) (rn rd rm : Reg) : Option Restriction :=
  firstBroken [(!p && w, .writeBackForm), (hasPc [rd, rm], .usesPc), ((!p || w) && rn == 15, .usesPc),
    ((!p || w) && rd == rn, .clash), (!p && rm == rn, .clash)]

/-- LDM, S = 0, and LDM with ^ and R15 (45_arm_block_swap R308). -/
def ldmRule (w : Bool) (rn : Reg) (list : BitVec 16) : Option Restriction :=
  firstBroken [(list == 0, .emptyList), (rn == 15, .usesPc), (w && inList list rn, .clash)]

/-- STM, S = 0 (R308): with write-back the base may be in the list only as its lowest register. -/
def stmRule (w : Bool) (rn : Reg) (list : BitVec 16) : Option Restriction :=
  firstBroken [(list == 0, .emptyList), (rn == 15, .usesPc), (w && inList list rn && !isLowest list rn, .clash)]

/-- LDM and STM of the User bank (R304, R306, R308): no write-back. -/
def userBankRule {n : Nat} (w : Bool) (rn : Reg) (list : BitVec n) : Option Restriction :=
  firstBroken [(list == 0, .emptyList), (rn == 15, .usesPc), (w, .writeBackForm)]

/-- Coprocessor instructions (46_arm_swi_coproc_undef R329). -/
def coprocRule (cp : BitVec 4) : Option Restriction := firstBroken [(cp == 14, .debugChannel)]

/-- Thumb MUL (47_thumb_alu R365): Rd and Rs differ. -/
def thumbMulRule (rs rd : LoReg) : Option Restriction := firstBroken [(rs == rd, .clash)]

/-- Thumb PUSH and POP (48_thumb_load_store R424, R425): the list, with LR or PC, is not empty. -/
def stackRule (r : Bool) (list : BitVec 8) : Option Restriction := firstBroken [(!r && list == 0, .emptyList)]

/-- Thumb STMIA (R426). -/
def stmiaRule (rb : LoReg) (list : BitVec 8) : Option Restriction :=
  firstBroken [(list == 0, .emptyList), (inList list (lo rb) && !isLowest list (lo rb), .clash)]

/-- Thumb LDMIA (R427). -/
def ldmiaRule (rb : LoReg) (list : BitVec 8) : Option Restriction :=
  firstBroken [(list == 0, .emptyList), (inList list (lo rb), .clash)]

end Sys2Proof.Machine
end

