-- ==== Sys2Proof/Machine/State.lean ====
section
/-! DEFINITION. The state of the machine as plain data, the reasons a step can stop, and the state after reset
(spec/10_state.md sections 1 to 6, 20_memory sections 1 to 6, 60_exceptions R478, 70_reset_and_hazards R522). -/

namespace Sys2Proof.Machine

/-- The seven processor modes (10_state R21, 60_exceptions R490). An illegal mode value is no mode (log entry 18). -/
inductive Mode where
  | usr | fiq | irq | svc | abt | und | sys
  deriving DecidableEq, Repr

/-- The 30 general registers that are not R15, each under its own name (10_state R22). -/
structure Regs where
  r0 : Word
  r1 : Word
  r2 : Word
  r3 : Word
  r4 : Word
  r5 : Word
  r6 : Word
  r7 : Word
  r8 : Word
  r9 : Word
  r10 : Word
  r11 : Word
  r12 : Word
  r13 : Word
  r14 : Word
  r8Fiq : Word
  r9Fiq : Word
  r10Fiq : Word
  r11Fiq : Word
  r12Fiq : Word
  r13Fiq : Word
  r14Fiq : Word
  r13Irq : Word
  r14Irq : Word
  r13Svc : Word
  r14Svc : Word
  r13Abt : Word
  r14Abt : Word
  r13Und : Word
  r14Und : Word
  deriving DecidableEq, Repr

/-- The names of those 30 registers: what `x[i]` resolves to (10_state R23). -/
inductive Phys where
  | r0 | r1 | r2 | r3 | r4 | r5 | r6 | r7 | r8 | r9 | r10 | r11 | r12 | r13 | r14
  | r8Fiq | r9Fiq | r10Fiq | r11Fiq | r12Fiq | r13Fiq | r14Fiq
  | r13Irq | r14Irq | r13Svc | r14Svc | r13Abt | r14Abt | r13Und | r14Und
  deriving DecidableEq, Repr

/-- The CPSR by fields (10_state R36): flags, the 20 reserved bits [27:8] (R39), I, F, T and the mode. -/
structure Psr where
  n : Bool
  z : Bool
  c : Bool
  v : Bool
  reserved : BitVec 20
  i : Bool
  f : Bool
  t : Bool
  mode : Mode
  deriving DecidableEq, Repr

/-- The five saved program status registers, 32 bits each (10_state R44). -/
structure Spsrs where
  fiq : Word
  irq : Word
  svc : Word
  abt : Word
  und : Word
  deriving DecidableEq, Repr

/-- The three addressable data types (20_memory R73). -/
inductive Size where
  | byte | half | word
  deriving DecidableEq, Repr

/-- What a bus access is for: nOPC (20_memory R98). -/
inductive AccessKind where
  | fetch | data
  deriving DecidableEq, Repr

/-- One bus access with the attributes the core drives on its pins (20_memory R97 to R102, R83; 10_state R51). -/
structure Access where
  addr : Word
  size : Size
  kind : AccessKind
  /-- Privileged access: nTRANS HIGH (R99). -/
  priv : Bool
  /-- A write cycle: nRW = 1 (R97). -/
  write : Bool
  /-- LOCK HIGH: the read or the write of SWP and SWPB (R100). -/
  locked : Bool
  /-- TBIT (R101). -/
  thumb : Bool
  /-- The mode whose inverse is on nM[4:0] (10_state R51). -/
  mode : Mode
  /-- What a write drives on D[31:0], the byte lanes repeated (R83). -/
  dout : Option Word
  deriving DecidableEq, Repr

/-- One clause of Platform.abort (20_memory R106, R89; 92_eei_decisions D4; log entry 5): the memory system asserts ABORT
for an access at an address from `lo` to `hi - 1` whose size, kind, privilege and direction are among those ticked, and,
with `onlyMisaligned`, only when the address is not a multiple of the size. -/
structure AbortRule where
  lo : Nat
  hi : Nat
  bytes : Bool
  halves : Bool
  words : Bool
  fetches : Bool
  datas : Bool
  privileged : Bool
  user : Bool
  reads : Bool
  writes : Bool
  onlyMisaligned : Bool
  deriving DecidableEq, Repr

/-- A region of Platform.mem that is not RAM (92_eei_decisions D4; log entry 6). -/
inductive RegionKind where
  /-- Reads as memory; a write does nothing. -/
  | rom
  /-- Every read is a free value; a write reaches no memory. -/
  | device
  deriving DecidableEq, Repr

/-- A region of the address space, addresses `lo` to `hi - 1`. -/
structure Region where
  lo : Nat
  hi : Nat
  kind : RegionKind
  deriving DecidableEq, Repr

/-- What the platform fixes for a run: the BIGEND pin (20_memory R78, 92_eei_decisions D3), which accesses abort, and
which regions are not RAM (D4). No instruction changes it. -/
structure Env where
  bigEndian : Bool
  abortRules : List AbortRule
  regions : List Region
  deriving DecidableEq, Repr

/-- The levels of the three input lines at one instruction boundary, true for HIGH (60_exceptions R465, R478, R479), and whether
nRESET falls while the step that begins there is in progress (70_reset_and_hazards R522). -/
structure Inputs where
  nRESET : Bool
  nFIQ : Bool
  nIRQ : Bool
  /-- `some n`: nRESET goes LOW in the middle of the step, when `n` of its data accesses have been made (log entry 7). -/
  resetAfter : Option Nat
  deriving DecidableEq, Repr

/-- No request: all three lines HIGH, and nRESET HIGH all through the step. -/
def Inputs.idle : Inputs := { nRESET := true, nFIQ := true, nIRQ := true, resetAfter := none }

/-- The contents of the next two instruction slots as already fetched, none where nothing is (10_state R50, R60; 20_memory
R128). A Thumb slot's halfword is zero-extended. -/
structure Pipe where
  first : Option Word
  second : Option Word
  deriving DecidableEq, Repr

/-- Nothing prefetched. -/
def Pipe.empty : Pipe := { first := none, second := none }

/-- Memory: (address, byte) pairs, addresses strictly rising, no byte equal to what an unlisted address reads as. -/
abbrev Memory := List Host.Cell

/-- The whole machine. -/
structure State where
  /-- The general registers but R15 (10_state R22). -/
  regs : Regs
  /-- The address of the instruction to execute next: the spec's `pc` (00_scope R10). -/
  pc : Word
  /-- The current program status register (10_state R36). -/
  cpsr : Psr
  /-- The saved program status registers (10_state R44). -/
  spsrs : Spsrs
  /-- Memory (20_memory R71). -/
  mem : Memory
  /-- The prefetched instruction slots (10_state R50). -/
  pipe : Pipe
  /-- The last instruction was an LDM of the User bank: the next must use no banked register (45_arm_block_swap R314). -/
  userLdm : Bool
  /-- The bus accesses of the last step, oldest first (20_memory R95 to R105). -/
  bus : List Access
  /-- The platform (92_eei_decisions D3, D4). -/
  env : Env
  /-- The input lines of the steps to come, then idle (92_eei_decisions D15; log entry 7). -/
  inputs : List Inputs
  /-- The model's own: how many free values have been drawn (00_scope R16; log entry 8). -/
  draws : Nat
  deriving DecidableEq, Repr

/-- The faults. -/
inductive Fault where
  /-- The fetch raises it when `pc` is misaligned for the state (20_memory R88). Safe: no reset, branch, entry or return leaves
  such a pc, so no run reaches it (log entry 25). -/
  | misalignedFetch
  deriving DecidableEq, Repr

/-- The refusals: cases the spec gives no meaning ("model: refuse"). Every one is safe: the run stops there. -/
inductive Refusal where
  /-- Raised by an arm of exec whose instruction has no meaning in this model. Safe. -/
  | notModelled (mnemonic : String)
  /-- The decoder: an ARM word with condition field 1111 (30_encoding R144, U1). Safe. -/
  | reservedCondition
  /-- The decoder: an ARM word of no format (30_encoding R145, R147, U2, U9). Safe. -/
  | unallocatedArm
  /-- The decoder: an ARM word that breaks a should-be bit (30_encoding R146, U5). Safe. -/
  | shouldBeBits
  /-- The decoder: a Thumb halfword of no format (30_encoding R153, U3). Safe. -/
  | unallocatedThumb
  /-- An instruction whose fields break a restriction of its rule (93_implementation_defined U6, U8, U11, U15, U20, U21, U24 to
  U27, U29 to U32, U34). Safe. -/
  | operands (why : Restriction)
  /-- A write of the ARM-state pc with bits [1:0] not 00 by data processing or BX (10_state R34, U14). Safe. -/
  | unalignedTarget
  /-- A sequential instruction at the top of the address space (10_state R35, U16). Safe. -/
  | runOffTop
  /-- A block transfer whose addresses wrap (10_state R35, U16). Safe. -/
  | blockWraps
  /-- An MSR that would change CPSR.T (10_state R41, U17). Safe. -/
  | changesT
  /-- A mode value not in the table, written or restored to CPSR.M (10_state R21, U18). Safe. -/
  | illegalMode
  /-- The SPSR named in User or System mode (10_state R44, U19). Safe. -/
  | noSpsr
  /-- A User-bank LDM or STM in User or System mode (45_arm_block_swap R304, R306). Safe. -/
  | userBankMode
  /-- A misaligned halfword or word data access that the platform does not abort (20_memory R87, U23). Safe. -/
  | misalignedData
  /-- A banked register used right after a User-bank LDM (45_arm_block_swap R314, U33). Safe. -/
  | bankedAfterUserLdm
  deriving DecidableEq, Repr

/-- The answer of a step or of a meaning. -/
abbrev Result := Host.Outcome State Fault Refusal

/-- The registers at reset: unspecified by 10_state R60, each at the value the model names. DESIGN CHOICE (log entry 2), unsafe. -/
def Regs.reset : Regs :=
  { r0 := Config.resetWord, r1 := Config.resetWord, r2 := Config.resetWord, r3 := Config.resetWord, r4 := Config.resetWord,
    r5 := Config.resetWord, r6 := Config.resetWord, r7 := Config.resetWord, r8 := Config.resetWord, r9 := Config.resetWord,
    r10 := Config.resetWord, r11 := Config.resetWord, r12 := Config.resetWord, r13 := Config.resetWord,
    r14 := Config.resetWord, r8Fiq := Config.resetWord, r9Fiq := Config.resetWord, r10Fiq := Config.resetWord,
    r11Fiq := Config.resetWord, r12Fiq := Config.resetWord, r13Fiq := Config.resetWord, r14Fiq := Config.resetWord,
    r13Irq := Config.resetWord, r14Irq := Config.resetWord, r13Svc := Config.resetWord, r14Svc := Config.resetWord,
    r13Abt := Config.resetWord, r14Abt := Config.resetWord, r13Und := Config.resetWord, r14Und := Config.resetWord }

/-- The machine right after reset (10_state R60, 70_reset_and_hazards R522): pc 0, Supervisor, I = F = 1, ARM state, nothing
prefetched, memory untouched. The unspecified rest is DESIGN CHOICE (log entry 2); the platform is the simplest of D3, D4. -/
def State.reset : State :=
  { regs := Regs.reset
    pc := 0
    cpsr := { n := false, z := false, c := false, v := false, reserved := 0, i := true, f := true, t := false, mode := .svc }
    spsrs := { fiq := Config.resetWord, irq := Config.resetWord, svc := Config.resetWord, abt := Config.resetWord,
               und := Config.resetWord }
    mem := []
    pipe := Pipe.empty
    userLdm := false
    bus := []
    env := { bigEndian := false, abortRules := [], regions := [] }
    inputs := []
    draws := 0 }

end Sys2Proof.Machine
end

