-- ==== Sys2Proof/Machine/Memory.lean ====
section
/-! DEFINITION. Memory as an array of bytes and the accesses of three sizes in either byte order (spec/20_memory.md R71, R73,
R79 to R83, R86), the platform's abort predicate (R106) and its regions (R95). -/

namespace Sys2Proof.Machine

/-- The byte at an address. -/
def Memory.read : Memory → Nat → Byte
  | [], _ => Config.unlistedByte
  | (k, v) :: rest, a => if k = a then v else Memory.read rest a

/-- The memory with nothing listed at an address. -/
def Memory.erase (m : Memory) (a : Nat) : Memory := m.filter (fun c => c.1 != a)

/-- A cell placed before the first cell of a higher address. -/
def Memory.insert : Memory → Nat → Byte → Memory
  | [], a, v => [(a, v)]
  | (k, u) :: rest, a, v => if a < k then (a, v) :: (k, u) :: rest else (k, u) :: Memory.insert rest a v

/-- The memory with a byte stored at an address, in the canonical form. -/
def Memory.write (m : Memory) (a : Nat) (v : Byte) : Memory :=
  if v = Config.unlistedByte then m.erase a else (m.erase a).insert a v

/-- Addresses from `lo` on, strictly rising, and no byte that an unlisted address reads as. -/
def Memory.wfFrom : Nat → Memory → Bool
  | _, [] => true
  | lo, (k, v) :: rest => lo ≤ k && v != Config.unlistedByte && Memory.wfFrom (k + 1) rest

/-- The canonical form, with every address inside the 32-bit space (R71). -/
def Memory.wf (m : Memory) : Bool := Memory.wfFrom 0 m && m.all (fun c => c.1 < 2 ^ 32)

/-- How many bytes an access moves (R73). -/
def Size.bytes : Size → Nat
  | .byte => 1
  | .half => 2
  | .word => 4

/-- The address is not a multiple of the size (R86, R87). -/
def misaligned (a : Word) : Size → Bool
  | .byte => false
  | .half => !halfAligned a
  | .word => !wordAligned a

/-- Byte `k` of the address space counted from `a`. -/
def byteAt (m : Memory) (a : Word) (k : Nat) : Byte := m.read (a + BitVec.ofNat 32 k).toNat

/-- MemRead: the bytes at `a` in the byte order, zero-extended to a word (R79, R80). -/
def memRead (big : Bool) (m : Memory) (a : Word) : Size → Word
  | .byte => (byteAt m a 0).setWidth 32
  | .half => (joinHalf big (byteAt m a 0) (byteAt m a 1)).setWidth 32
  | .word => joinWord big (byteAt m a 0) (byteAt m a 1) (byteAt m a 2) (byteAt m a 3)

/-- Store byte `k` counted from `a`. -/
def putByte (m : Memory) (a : Word) (k : Nat) (v : Byte) : Memory := m.write (a + BitVec.ofNat 32 k).toNat v

/-- Byte `k` of a word, byte 0 the least significant. -/
def wordByte (v : Word) (k : Nat) : Byte := v.extractLsb' (8 * k) 8

/-- MemWrite: the low bytes of `v` at `a` in the byte order (R79, R80). -/
def memWrite (big : Bool) (m : Memory) (a : Word) (v : Word) : Size → Memory
  | .byte => putByte m a 0 (wordByte v 0)
  | .half =>
    if big then putByte (putByte m a 0 (wordByte v 1)) a 1 (wordByte v 0)
    else putByte (putByte m a 0 (wordByte v 0)) a 1 (wordByte v 1)
  | .word =>
    if big then putByte (putByte (putByte (putByte m a 0 (wordByte v 3)) a 1 (wordByte v 2)) a 2 (wordByte v 1)) a 3 (wordByte v 0)
    else putByte (putByte (putByte (putByte m a 0 (wordByte v 0)) a 1 (wordByte v 1)) a 2 (wordByte v 2)) a 3 (wordByte v 3)

/-- The low bytes of a word that an access of a size moves, zero-extended. -/
def sizeMask (v : Word) : Size → Word
  | .byte => (v.setWidth 8).setWidth 32
  | .half => (v.setWidth 16).setWidth 32
  | .word => v

/-- What a store drives on D[31:0]: a byte on all four lanes, a halfword on both halves (R83). -/
def lanes (v : Word) : Size → Word
  | .byte => wordByte v 0 ++ wordByte v 0 ++ wordByte v 0 ++ wordByte v 0
  | .half => v.setWidth 16 ++ v.setWidth 16
  | .word => v

/-- One clause of the abort predicate holds of an access. -/
def AbortRule.hits (r : AbortRule) (a : Word) (size : Size) (kind : AccessKind) (priv write : Bool) : Bool :=
  r.lo ≤ a.toNat && a.toNat < r.hi
    && (match size with | .byte => r.bytes | .half => r.halves | .word => r.words)
    && (match kind with | .fetch => r.fetches | .data => r.datas)
    && (if priv then r.privileged else r.user)
    && (if write then r.writes else r.reads)
    && (!r.onlyMisaligned || misaligned a size)

/-- Platform.abort(addr, n, kind, privilege, rw) (R106). -/
def Env.aborts (e : Env) (a : Word) (size : Size) (kind : AccessKind) (priv write : Bool) : Bool :=
  e.abortRules.any (fun r => r.hits a size kind priv write)

/-- The kind of the first region that holds an address; none is RAM (92_eei_decisions D4). -/
def Env.regionAt (e : Env) (a : Word) : Option RegionKind :=
  (e.regions.find? (fun r => r.lo ≤ a.toNat && a.toNat < r.hi)).map (fun r => r.kind)

end Sys2Proof.Machine
end

