-- ==== Sys2Proof/Machine/Psr.lean ====
section
/-! DEFINITION. The status registers: the mode values, the CPSR as a word and back, the SPSR of a mode, and the conditions
(spec/10_state.md R21, R36, R44; 30_encoding R143). -/

namespace Sys2Proof.Machine

/-- M[4:0] of a mode (10_state R21). -/
def Mode.bits : Mode → BitVec 5
  | .usr => 0b10000#5
  | .fiq => 0b10001#5
  | .irq => 0b10010#5
  | .svc => 0b10011#5
  | .abt => 0b10111#5
  | .und => 0b11011#5
  | .sys => 0b11111#5

/-- The mode of M[4:0]; any other value is illegal (10_state R21). -/
def Mode.ofBits (b : BitVec 5) : Option Mode :=
  match b.toNat with
  | 16 => some .usr
  | 17 => some .fiq
  | 18 => some .irq
  | 19 => some .svc
  | 23 => some .abt
  | 27 => some .und
  | 31 => some .sys
  | _ => none

/-- Every mode but User is privileged (10_state R21). -/
def Mode.privileged (m : Mode) : Bool := m != .usr

/-- The 32 bits of the CPSR (10_state R36). -/
def Psr.toWord (p : Psr) : Word :=
  BitVec.ofBool p.n ++ BitVec.ofBool p.z ++ BitVec.ofBool p.c ++ BitVec.ofBool p.v ++ p.reserved
    ++ BitVec.ofBool p.i ++ BitVec.ofBool p.f ++ BitVec.ofBool p.t ++ p.mode.bits

/-- The CPSR of 32 bits; none where the mode value is illegal (10_state R21, R36). -/
def Psr.ofWord (w : Word) : Option Psr :=
  match Mode.ofBits (w.extractLsb' 0 5) with
  | none => none
  | some m =>
    some { n := w.getLsbD 31, z := w.getLsbD 30, c := w.getLsbD 29, v := w.getLsbD 28, reserved := w.extractLsb' 8 20,
           i := w.getLsbD 7, f := w.getLsbD 6, t := w.getLsbD 5, mode := m }

/-- The SPSR of a mode; User and System have none (10_state R44). -/
def Spsrs.get (p : Spsrs) : Mode → Option Word
  | .usr => none
  | .fiq => some p.fiq
  | .irq => some p.irq
  | .svc => some p.svc
  | .abt => some p.abt
  | .und => some p.und
  | .sys => none

/-- The SPSRs with that of a mode written. -/
def Spsrs.set (p : Spsrs) (m : Mode) (v : Word) : Spsrs :=
  match m with
  | .usr => p
  | .fiq => { p with fiq := v }
  | .irq => { p with irq := v }
  | .svc => { p with svc := v }
  | .abt => { p with abt := v }
  | .und => { p with und := v }
  | .sys => p

/-- ConditionPassed (30_encoding R143). -/
def condPassed (c : Cond) (p : Psr) : Bool :=
  match c with
  | .eq => p.z
  | .ne => !p.z
  | .cs => p.c
  | .cc => !p.c
  | .mi => p.n
  | .pl => !p.n
  | .vs => p.v
  | .vc => !p.v
  | .hi => p.c && !p.z
  | .ls => !p.c || p.z
  | .ge => p.n == p.v
  | .lt => p.n != p.v
  | .gt => !p.z && p.n == p.v
  | .le => p.z || p.n != p.v
  | .al => true

/-- A PSR with the bytes of the mask taken from another word: mask bit 0 is bits [7:0], bit 3 bits [31:24] (42_arm_psr_transfer R244). -/
def mergeBytes (mask : BitVec 4) (old new : Word) : Word :=
  (if mask.getLsbD 3 then new.extractLsb' 24 8 else old.extractLsb' 24 8)
    ++ (if mask.getLsbD 2 then new.extractLsb' 16 8 else old.extractLsb' 16 8)
    ++ (if mask.getLsbD 1 then new.extractLsb' 8 8 else old.extractLsb' 8 8)
    ++ (if mask.getLsbD 0 then new.extractLsb' 0 8 else old.extractLsb' 0 8)

end Sys2Proof.Machine
end

