-- ==== Sys2Proof/Machine/Flags.lean ====
section
/-! DEFINITION. The adder, the sixteen data-processing operations and every way a flag is computed
(spec/00_scope.md R13, R15; 41_arm_data_processing R200, R208 to R225; 43_arm_multiply R251 to R256). -/

namespace Sys2Proof.Machine

/-- What AddWithCarry returns (00_scope R13). -/
structure Sum where
  result : Word
  carry : Bool
  ovf : Bool
  deriving DecidableEq, Repr

/-- AddWithCarry(a, b, cin): the exact unsigned and signed sums, then narrowed (00_scope R13). -/
def addWithCarry (a b : Word) (cin : Bool) : Sum :=
  let usum := a.toNat + b.toNat + cin.toNat
  let ssum := a.toInt + b.toInt + cin.toNat
  { result := BitVec.ofNat 32 usum
    carry := decide (usum ≥ 2 ^ 32)
    ovf := decide (ssum < -2 ^ 31) || decide (ssum > 2 ^ 31 - 1) }

/-- The sixteen operations of data processing (41_arm_data_processing R224). -/
inductive AluOp where
  | and | eor | sub | rsb | add | adc | sbc | rsc | tst | teq | cmp | cmn | orr | mov | bic | mvn
  deriving DecidableEq, Repr

/-- A second operand and the shifter's carry-out (R200). -/
structure Shifted where
  value : Word
  carry : Bool
  deriving DecidableEq, Repr

/-- Result, C and V of an operation on `a` and the shifted operand (R208 to R223): a logical one takes the shifter's
carry-out as C and leaves V (R200). -/
def alu (op : AluOp) (a : Word) (o : Shifted) (p : Psr) : Sum :=
  match op with
  | .and => { result := a &&& o.value, carry := o.carry, ovf := p.v }
  | .eor => { result := a ^^^ o.value, carry := o.carry, ovf := p.v }
  | .sub => addWithCarry a (~~~o.value) true
  | .rsb => addWithCarry o.value (~~~a) true
  | .add => addWithCarry a o.value false
  | .adc => addWithCarry a o.value p.c
  | .sbc => addWithCarry a (~~~o.value) p.c
  | .rsc => addWithCarry o.value (~~~a) p.c
  | .tst => { result := a &&& o.value, carry := o.carry, ovf := p.v }
  | .teq => { result := a ^^^ o.value, carry := o.carry, ovf := p.v }
  | .cmp => addWithCarry a (~~~o.value) true
  | .cmn => addWithCarry a o.value false
  | .orr => { result := a ||| o.value, carry := o.carry, ovf := p.v }
  | .mov => { result := o.value, carry := o.carry, ovf := p.v }
  | .bic => { result := a &&& ~~~o.value, carry := o.carry, ovf := p.v }
  | .mvn => { result := ~~~o.value, carry := o.carry, ovf := p.v }

/-- All four flags of a sum. -/
def flagsOf (r : Sum) (p : Psr) : Psr :=
  { p with n := r.result.getLsbD 31, z := r.result == 0, c := r.carry, v := r.ovf }

/-- The flags with S = 1, else the old ones. -/
def flagsIf (sf : Bool) (r : Sum) (p : Psr) : Psr := if sf then flagsOf r p else p

/-- SetNZ (00_scope R15). -/
def setNZ (v : Word) (p : Psr) : Psr := { p with n := v.getLsbD 31, z := v == 0 }

/-- SetNZ64 (00_scope R15). -/
def setNZ64 (v : BitVec 64) (p : Psr) : Psr := { p with n := v.getLsbD 63, z := v == 0 }

end Sys2Proof.Machine
end

