-- ==== Sys2Proof/Machine/Operands.lean ====
section
/-! DEFINITION. Every operand form: the shifter operand (spec/41_arm_data_processing.md R202 to R204), the offsets and addresses
of single transfers (44_arm_load_store R266, R280), of block transfers (45_arm_block_swap R301), and scaled immediates
(30_encoding R149, R152). -/

namespace Sys2Proof.Machine

/-- LSL by `n` ≤ 31 places: the carry-out is the last bit shifted out, the old carry when n = 0 (R203). -/
def lslSmall (m : Word) (n : Nat) (c : Bool) : Shifted :=
  if n = 0 then { value := m, carry := c } else { value := m <<< n, carry := m.getLsbD (32 - n) }

/-- LSR by 1 ≤ n ≤ 31 places. -/
def lsrSmall (m : Word) (n : Nat) : Shifted := { value := m >>> n, carry := m.getLsbD (n - 1) }

/-- ASR by 1 ≤ n ≤ 31 places. -/
def asrSmall (m : Word) (n : Nat) : Shifted := { value := m.sshiftRight n, carry := m.getLsbD (n - 1) }

/-- ROR by 1 ≤ n ≤ 31 places. -/
def rorSmall (m : Word) (n : Nat) : Shifted := { value := ror m n, carry := m.getLsbD (n - 1) }

/-- 32 copies of bit 31, and bit 31: ASR by 32 or more. -/
def signFill (m : Word) : Shifted := { value := if m.getLsbD 31 then 0xFFFFFFFF else 0, carry := m.getLsbD 31 }

/-- RRX: C in bit 31 above m shifted right by one (R203). -/
def rrx (m : Word) (c : Bool) : Shifted := { value := BitVec.ofBool c ++ m.extractLsb' 1 31, carry := m.getLsbD 0 }

/-- A register value shifted by a 5-bit immediate; amount 0 means LSL #0, LSR #32, ASR #32, RRX (R203). -/
def shiftImm (type : ShiftType) (m : Word) (amount : BitVec 5) (c : Bool) : Shifted :=
  let n := amount.toNat
  match type with
  | .lsl => lslSmall m n c
  | .lsr => if n = 0 then { value := 0, carry := m.getLsbD 31 } else lsrSmall m n
  | .asr => if n = 0 then signFill m else asrSmall m n
  | .ror => if n = 0 then rrx m c else rorSmall m n

/-- A register value shifted by the low byte of a register, 0 to 255 (R204). -/
def shiftReg (type : ShiftType) (m : Word) (amount : Byte) (c : Bool) : Shifted :=
  let n := amount.toNat
  if n = 0 then { value := m, carry := c }
  else
    match type with
    | .lsl =>
      if n < 32 then lslSmall m n c else { value := 0, carry := n == 32 && m.getLsbD 0 }
    | .lsr =>
      if n < 32 then lsrSmall m n else { value := 0, carry := n == 32 && m.getLsbD 31 }
    | .asr => if n < 32 then asrSmall m n else signFill m
    | .ror => if n % 32 = 0 then { value := m, carry := m.getLsbD 31 } else rorSmall m (n % 32)

/-- `zext_8(imm8) ROR (2 * rotate)` (R202). -/
def rotValue (o : RotImm) : Word := ror (o.imm8.setWidth 32) (2 * o.rotate.toNat)

/-- The immediate operand and its carry-out (R202). -/
def immOperand (o : RotImm) (c : Bool) : Shifted :=
  { value := rotValue o, carry := if o.rotate = 0 then c else (rotValue o).getLsbD 31 }

/-- Where a single transfer goes and what the base becomes, none where it stays (44_arm_load_store R266, R280). -/
structure Address where
  addr : Word
  wb : Option Word
  deriving DecidableEq, Repr

/-- The base with the offset applied, up or down. -/
def offsetBase (u : Bool) (base off : Word) : Word := if u then base + off else base - off

/-- Addressing by P, U, W: pre-indexed accesses the target, post-indexed the base and always writes back (R266). -/
def address (p u w : Bool) (base off : Word) : Address :=
  { addr := if p then offsetBase u base off else base
    wb := if !p || w then some (offsetBase u base off) else none }

/-- The first address of a block transfer of `n` registers (45_arm_block_swap R301). -/
def blockStart (p u : Bool) (base : Word) (n : Nat) : Word :=
  match p, u with
  | false, true => base
  | true, true => base + 4
  | false, false => base - BitVec.ofNat 32 (4 * n) + 4
  | true, false => base - BitVec.ofNat 32 (4 * n)

/-- The base after a block transfer with write-back (R301). -/
def blockBase (u : Bool) (base : Word) (n : Nat) : Word := offsetBase u base (BitVec.ofNat 32 (4 * n))

/-- A branch offset: sign-extended, times 2 to the `scale` (30_encoding R149, R152). -/
def branchOffset {n : Nat} (off : BitVec n) (scale : Nat) : Word := (off.signExtend 32) <<< scale

/-- An unsigned immediate, times 2 to the `scale` (30_encoding R152). -/
def scaled {n : Nat} (imm : BitVec n) (scale : Nat) : Word := (imm.setWidth 32) <<< scale

end Sys2Proof.Machine
end

