-- ==== Sys2Proof/Machine/Ops.lean ====
section
/-! DEFINITION. The named operations: registers by mode, the program counter, free values, conditions and restrictions, taking
an exception and returning from one, reset, and one data access (spec/10_state.md R22 to R35, 60_exceptions R466 to R474,
R483, 70_reset_and_hazards R522, 20_memory R87, R95). -/

namespace Sys2Proof.Machine

/-! ## Registers -/

/-- The register a name stands for. -/
def Regs.get (g : Regs) : Phys → Word
  | .r0 => g.r0
  | .r1 => g.r1
  | .r2 => g.r2
  | .r3 => g.r3
  | .r4 => g.r4
  | .r5 => g.r5
  | .r6 => g.r6
  | .r7 => g.r7
  | .r8 => g.r8
  | .r9 => g.r9
  | .r10 => g.r10
  | .r11 => g.r11
  | .r12 => g.r12
  | .r13 => g.r13
  | .r14 => g.r14
  | .r8Fiq => g.r8Fiq
  | .r9Fiq => g.r9Fiq
  | .r10Fiq => g.r10Fiq
  | .r11Fiq => g.r11Fiq
  | .r12Fiq => g.r12Fiq
  | .r13Fiq => g.r13Fiq
  | .r14Fiq => g.r14Fiq
  | .r13Irq => g.r13Irq
  | .r14Irq => g.r14Irq
  | .r13Svc => g.r13Svc
  | .r14Svc => g.r14Svc
  | .r13Abt => g.r13Abt
  | .r14Abt => g.r14Abt
  | .r13Und => g.r13Und
  | .r14Und => g.r14Und

/-- The registers with one written. -/
def Regs.set (g : Regs) (p : Phys) (v : Word) : Regs :=
  match p with
  | .r0 => { g with r0 := v }
  | .r1 => { g with r1 := v }
  | .r2 => { g with r2 := v }
  | .r3 => { g with r3 := v }
  | .r4 => { g with r4 := v }
  | .r5 => { g with r5 := v }
  | .r6 => { g with r6 := v }
  | .r7 => { g with r7 := v }
  | .r8 => { g with r8 := v }
  | .r9 => { g with r9 := v }
  | .r10 => { g with r10 := v }
  | .r11 => { g with r11 := v }
  | .r12 => { g with r12 := v }
  | .r13 => { g with r13 := v }
  | .r14 => { g with r14 := v }
  | .r8Fiq => { g with r8Fiq := v }
  | .r9Fiq => { g with r9Fiq := v }
  | .r10Fiq => { g with r10Fiq := v }
  | .r11Fiq => { g with r11Fiq := v }
  | .r12Fiq => { g with r12Fiq := v }
  | .r13Fiq => { g with r13Fiq := v }
  | .r14Fiq => { g with r14Fiq := v }
  | .r13Irq => { g with r13Irq := v }
  | .r14Irq => { g with r14Irq := v }
  | .r13Svc => { g with r13Svc := v }
  | .r14Svc => { g with r14Svc := v }
  | .r13Abt => { g with r13Abt := v }
  | .r14Abt => { g with r14Abt := v }
  | .r13Und => { g with r13Und := v }
  | .r14Und => { g with r14Und := v }

/-- The registers whose values a function gives. -/
def Regs.ofFn (f : Phys → Word) : Regs :=
  { r0 := f .r0, r1 := f .r1, r2 := f .r2, r3 := f .r3, r4 := f .r4, r5 := f .r5, r6 := f .r6, r7 := f .r7, r8 := f .r8,
    r9 := f .r9, r10 := f .r10, r11 := f .r11, r12 := f .r12, r13 := f .r13, r14 := f .r14, r8Fiq := f .r8Fiq,
    r9Fiq := f .r9Fiq, r10Fiq := f .r10Fiq, r11Fiq := f .r11Fiq, r12Fiq := f .r12Fiq, r13Fiq := f .r13Fiq,
    r14Fiq := f .r14Fiq, r13Irq := f .r13Irq, r14Irq := f .r14Irq, r13Svc := f .r13Svc, r14Svc := f .r14Svc,
    r13Abt := f .r13Abt, r14Abt := f .r14Abt, r13Und := f .r13Und, r14Und := f .r14Und }

/-- What `x[13]` is in a mode (10_state R23). -/
def spOf : Mode → Phys
  | .usr => .r13
  | .fiq => .r13Fiq
  | .irq => .r13Irq
  | .svc => .r13Svc
  | .abt => .r13Abt
  | .und => .r13Und
  | .sys => .r13

/-- What `x[14]` is in a mode (10_state R23). -/
def lrOf : Mode → Phys
  | .usr => .r14
  | .fiq => .r14Fiq
  | .irq => .r14Irq
  | .svc => .r14Svc
  | .abt => .r14Abt
  | .und => .r14Und
  | .sys => .r14

/-- What `x[i]` resolves to in a mode; R15 is the pc, not one of the thirty (10_state R23). -/
def bank (m : Mode) (r : Reg) : Option Phys :=
  match r.toNat with
  | 0 => some .r0
  | 1 => some .r1
  | 2 => some .r2
  | 3 => some .r3
  | 4 => some .r4
  | 5 => some .r5
  | 6 => some .r6
  | 7 => some .r7
  | 8 => some (if m = .fiq then .r8Fiq else .r8)
  | 9 => some (if m = .fiq then .r9Fiq else .r9)
  | 10 => some (if m = .fiq then .r10Fiq else .r10)
  | 11 => some (if m = .fiq then .r11Fiq else .r11)
  | 12 => some (if m = .fiq then .r12Fiq else .r12)
  | 13 => some (spOf m)
  | 14 => some (lrOf m)
  | _ => none

/-- The length of the instruction being executed: 4 bytes in ARM state, 2 in Thumb state (30_encoding R140). -/
def instrBytes (s : State) : Word := if s.cpsr.t then 2 else 4

/-- R15 read as an operand: pc + 8 in ARM state, pc + 4 in Thumb state (10_state R31). -/
def pcRead (s : State) : Word := s.pc + (if s.cpsr.t then 4 else 8)

/-- `x_m[i]` of a named mode; R15 reads as `pcRead` (00_scope R10). -/
def readBank (s : State) (m : Mode) (r : Reg) : Word :=
  match bank m r with
  | some p => s.regs.get p
  | none => pcRead s

/-- `x_m[i] <- v`. A write of R15 is a branch and is never made here (00_scope R10). -/
def writeBank (s : State) (m : Mode) (r : Reg) (v : Word) : State :=
  match bank m r with
  | some p => { s with regs := s.regs.set p v }
  | none => s

/-- `x[i]` as the current mode sees it (00_scope R10). -/
def readReg (s : State) (r : Reg) : Word := readBank s s.cpsr.mode r

/-- `x[i] <- v` (00_scope R10). -/
def writeReg (s : State) (r : Reg) (v : Word) : State := writeBank s s.cpsr.mode r v

/-- `x[i] <- v` where there is a value to write: the base write-back. -/
def writeBack (s : State) (r : Reg) : Option Word → State
  | some v => writeReg s r v
  | none => s

/-- What a store puts in memory for a register: R15 is pc + 12 (44_arm_load_store R271, 45_arm_block_swap R305). -/
def storeValue (s : State) (m : Mode) (r : Reg) : Word := if r = 15 then s.pc + 12 else readBank s m r

/-! ## The program counter -/

/-- The next instruction in sequence (10_state R32). -/
def nextPc (s : State) : Word := s.pc + instrBytes s

/-- `pc <- pc + 4` (ARM) or `pc + 2` (Thumb); running off the top of the address space is refused (10_state R32, R35). -/
def advance (s : State) : Result :=
  if s.pc.toNat + (instrBytes s).toNat < 2 ^ 32 then .next { s with pc := nextPc s } else .refused .runOffTop

/-- `pc <- t`: the pipeline is refilled (10_state R32). -/
def branchTo (t : Word) (s : State) : State := { s with pc := t, pipe := Pipe.empty }

/-- A write of the pc by ARM data processing, S = 0: bits [1:0] must be 00 (10_state R34). -/
def branchAligned (t : Word) (s : State) : Result :=
  if wordAligned t then .next (branchTo t s) else .refused .unalignedTarget

/-- BX to `t`: bit 0 is the new state; ARM state needs a word-aligned target (40_arm_branch R194, 47_thumb_alu R379). -/
def branchExchange (t : Word) (s : State) : Result :=
  if t.getLsbD 0 then .next (branchTo (halfMask t) { s with cpsr := { s.cpsr with t := true } })
  else if wordAligned t then .next (branchTo t { s with cpsr := { s.cpsr with t := false } })
  else .refused .unalignedTarget

/-! ## Free values -/

/-- A draw of a bit (00_scope R16). -/
def drawBit (s : State) : Bool × State := (Config.freeBit s.draws, { s with draws := s.draws + 1 })

/-- A draw of a word. -/
def drawWord (s : State) : Word × State := (Config.freeWord s.draws, { s with draws := s.draws + 1 })

/-! ## Conditions and restrictions -/

/-- An instruction whose restriction is broken is refused by that restriction. -/
def checked (broken : Option Restriction) (body : Result) : Result :=
  match broken with
  | some why => .refused (.operands why)
  | none => body

/-- An ARM instruction: where the condition fails it only advances (00_scope R14); where it passes, the restrictions hold
(log entry 14), then its effect. -/
def conditional (c : Cond) (broken : Option Restriction) (s : State) (body : Result) : Result :=
  if condPassed c s.cpsr then checked broken body else advance s

/-! ## Exceptions -/

/-- The exceptions but Reset (60_exceptions R461). -/
inductive Exc where
  | undefined | swi | prefetchAbort | dataAbort | irq | fiq
  deriving DecidableEq, Repr

/-- The mode an exception enters (60_exceptions R466). -/
def Exc.mode : Exc → Mode
  | .undefined => .und
  | .swi => .svc
  | .prefetchAbort => .abt
  | .dataAbort => .abt
  | .irq => .irq
  | .fiq => .fiq

/-- The vector of an exception (60_exceptions R466). -/
def Exc.vector : Exc → Word
  | .undefined => 0x00000004
  | .swi => 0x00000008
  | .prefetchAbort => 0x0000000C
  | .dataAbort => 0x00000010
  | .irq => 0x00000018
  | .fiq => 0x0000001C

/-- The CPSR after entry: mode, T = 0, I = 1, F = 1 for FIQ only; the rest as it was (60_exceptions R468). -/
def entryPsr (e : Exc) (p : Psr) : Psr := { p with mode := e.mode, t := false, i := true, f := p.f || e == .fiq }

/-- Exception entry with the return value `ret` (60_exceptions R468): R14 and SPSR of the mode entered saved, the CPSR
changed, the pc at the vector, the pipeline refilled. -/
def enterException (e : Exc) (ret : Word) (s : State) : State :=
  { s with
    regs := s.regs.set (lrOf e.mode) ret
    spsrs := s.spsrs.set e.mode s.cpsr.toWord
    cpsr := entryPsr e s.cpsr
    pc := e.vector
    pipe := Pipe.empty
    userLdm := false }

/-- SWI and Undefined Instruction: return to the next instruction, pc + 4 or pc + 2 (60_exceptions R469). -/
def takeTrap (e : Exc) (s : State) : State := enterException e (nextPc s) s

/-- Data Abort: R14_abt is pc + 8 in both states (60_exceptions R469, R474). -/
def takeDataAbort (s : State) : State := enterException .dataAbort (s.pc + 8) s

/-- Prefetch Abort, IRQ and FIQ: R14 is pc + 4 in both states (60_exceptions R469). -/
def takeBefore (e : Exc) (s : State) : State := enterException e (s.pc + 4) s

/-- Reset (70_reset_and_hazards R522): R14_svc and SPSR_svc are free values; everything it does not name stays (log entry 27). -/
def takeReset (s : State) : State :=
  let d1 := drawWord s
  let d2 := drawWord d1.2
  { d2.2 with
    regs := s.regs.set .r14Svc d1.1
    spsrs := { s.spsrs with svc := d2.1 }
    cpsr := { s.cpsr with mode := .svc, i := true, f := true, t := false }
    pc := 0
    pipe := Pipe.empty
    userLdm := false }

/-- Return from an exception to `target`: CPSR <- SPSR of the current mode; a restored T = 1 clears bit 0 of the target. With
T = 0, bits [1:0] are ignored by an LDM (`masks`) and must be 00 for data processing (60_exceptions R483,
41_arm_data_processing R207, 45_arm_block_swap R303). -/
def exceptionReturn (masks : Bool) (target : Word) (s : State) : Result :=
  match s.spsrs.get s.cpsr.mode with
  | none => .refused .noSpsr
  | some w =>
    match Psr.ofWord w with
    | none => .refused .illegalMode
    | some p =>
      if p.t then .next (branchTo (halfMask target) { s with cpsr := p })
      else if masks then .next (branchTo (wordMask target) { s with cpsr := p })
      else branchAligned target { s with cpsr := p }

/-! ## One data access (20_memory R87, R89, R95; 92_eei_decisions D4, D5) -/

/-- The pins of a data access of the current mode and state; `priv` is nTRANS. -/
def accessOf (s : State) (a : Word) (size : Size) (priv write locked : Bool) (dout : Option Word) : Access :=
  { addr := a, size := size, kind := .data, priv := priv, write := write, locked := locked, thumb := s.cpsr.t,
    mode := s.cpsr.mode, dout := dout }

/-- The access appears on the bus. -/
def record (s : State) (x : Access) : State := { s with bus := s.bus ++ [x] }

/-- The platform aborts a data access (20_memory R106). -/
def abortsData (s : State) (a : Word) (size : Size) (priv write : Bool) : Bool := s.env.aborts a size .data priv write

/-- The value a read delivers: a free value in a device region, else what memory holds (92_eei_decisions D4). -/
def readMem (s : State) (a : Word) (size : Size) : Word × State :=
  match s.env.regionAt a with
  | some .device => (sizeMask (drawWord s).1 size, (drawWord s).2)
  | _ => (memRead s.env.bigEndian s.mem a size, s)

/-- What a write does: nothing in ROM, nothing to memory in a device region, else the bytes are stored (92_eei_decisions D4). -/
def writeMem (s : State) (a : Word) (size : Size) (v : Word) : State :=
  match s.env.regionAt a with
  | some _ => s
  | none => { s with mem := memWrite s.env.bigEndian s.mem a v size }

end Sys2Proof.Machine
end

