-- ==== Sys2Proof/Machine/Hazard.lean ====
section
/-! DEFINITION. The hazard after a User-bank LDM (spec/45_arm_block_swap.md R314, 70_reset_and_hazards R531): which registers an
instruction reads or writes, its condition, and whether the next instruction uses a banked one (log entry 13). -/

namespace Sys2Proof.Machine

/-- The registers an instruction's own operation reads or writes among R8 to R15, whether named or implied (SP, LR). A trap
to an exception handler is no access of the instruction; the User-bank forms name User registers and use only their base. -/
def highUsed : Instr → List Reg
  | .b _ _ => []
  | .bl _ _ => [14]
  | .bx _ rn => [rn]
  | .andImm _ _ rn rd _ => [rn, rd]
  | .andShImm _ _ rn rd o => [rn, rd, o.rm]
  | .andShReg _ _ rn rd o => [rn, rd, o.rs, o.rm]
  | .eorImm _ _ rn rd _ => [rn, rd]
  | .eorShImm _ _ rn rd o => [rn, rd, o.rm]
  | .eorShReg _ _ rn rd o => [rn, rd, o.rs, o.rm]
  | .subImm _ _ rn rd _ => [rn, rd]
  | .subShImm _ _ rn rd o => [rn, rd, o.rm]
  | .subShReg _ _ rn rd o => [rn, rd, o.rs, o.rm]
  | .rsbImm _ _ rn rd _ => [rn, rd]
  | .rsbShImm _ _ rn rd o => [rn, rd, o.rm]
  | .rsbShReg _ _ rn rd o => [rn, rd, o.rs, o.rm]
  | .addImm _ _ rn rd _ => [rn, rd]
  | .addShImm _ _ rn rd o => [rn, rd, o.rm]
  | .addShReg _ _ rn rd o => [rn, rd, o.rs, o.rm]
  | .adcImm _ _ rn rd _ => [rn, rd]
  | .adcShImm _ _ rn rd o => [rn, rd, o.rm]
  | .adcShReg _ _ rn rd o => [rn, rd, o.rs, o.rm]
  | .sbcImm _ _ rn rd _ => [rn, rd]
  | .sbcShImm _ _ rn rd o => [rn, rd, o.rm]
  | .sbcShReg _ _ rn rd o => [rn, rd, o.rs, o.rm]
  | .rscImm _ _ rn rd _ => [rn, rd]
  | .rscShImm _ _ rn rd o => [rn, rd, o.rm]
  | .rscShReg _ _ rn rd o => [rn, rd, o.rs, o.rm]
  | .tstImm _ rn _ => [rn]
  | .tstShImm _ rn o => [rn, o.rm]
  | .tstShReg _ rn o => [rn, o.rs, o.rm]
  | .teqImm _ rn _ => [rn]
  | .teqShImm _ rn o => [rn, o.rm]
  | .teqShReg _ rn o => [rn, o.rs, o.rm]
  | .cmpImm _ rn _ => [rn]
  | .cmpShImm _ rn o => [rn, o.rm]
  | .cmpShReg _ rn o => [rn, o.rs, o.rm]
  | .cmnImm _ rn _ => [rn]
  | .cmnShImm _ rn o => [rn, o.rm]
  | .cmnShReg _ rn o => [rn, o.rs, o.rm]
  | .orrImm _ _ rn rd _ => [rn, rd]
  | .orrShImm _ _ rn rd o => [rn, rd, o.rm]
  | .orrShReg _ _ rn rd o => [rn, rd, o.rs, o.rm]
  | .movImm _ _ rd _ => [rd]
  | .movShImm _ _ rd o => [rd, o.rm]
  | .movShReg _ _ rd o => [rd, o.rs, o.rm]
  | .bicImm _ _ rn rd _ => [rn, rd]
  | .bicShImm _ _ rn rd o => [rn, rd, o.rm]
  | .bicShReg _ _ rn rd o => [rn, rd, o.rs, o.rm]
  | .mvnImm _ _ rd _ => [rd]
  | .mvnShImm _ _ rd o => [rd, o.rm]
  | .mvnShReg _ _ rd o => [rd, o.rs, o.rm]
  | .mrs _ _ rd => [rd]
  | .msrReg _ _ _ rm => [rm]
  | .msrImm _ _ _ _ => []
  | .mul _ _ rd rs rm => [rd, rs, rm]
  | .mla _ _ rd rn rs rm => [rd, rn, rs, rm]
  | .umull _ _ hi lo rs rm => [hi, lo, rs, rm]
  | .umlal _ _ hi lo rs rm => [hi, lo, rs, rm]
  | .smull _ _ hi lo rs rm => [hi, lo, rs, rm]
  | .smlal _ _ hi lo rs rm => [hi, lo, rs, rm]
  | .swp _ rn rd rm => [rn, rd, rm]
  | .swpb _ rn rd rm => [rn, rd, rm]
  | .strhReg _ _ _ _ rn rd rm => [rn, rd, rm]
  | .strhImm _ _ _ _ rn rd _ => [rn, rd]
  | .ldrhReg _ _ _ _ rn rd rm => [rn, rd, rm]
  | .ldrhImm _ _ _ _ rn rd _ => [rn, rd]
  | .ldrsbReg _ _ _ _ rn rd rm => [rn, rd, rm]
  | .ldrsbImm _ _ _ _ rn rd _ => [rn, rd]
  | .ldrshReg _ _ _ _ rn rd rm => [rn, rd, rm]
  | .ldrshImm _ _ _ _ rn rd _ => [rn, rd]
  | .strImmPre _ _ _ rn rd _ => [rn, rd]
  | .strImmPost _ _ rn rd _ => [rn, rd]
  | .strtImm _ _ rn rd _ => [rn, rd]
  | .strRegPre _ _ _ rn rd o => [rn, rd, o.rm]
  | .strRegPost _ _ rn rd o => [rn, rd, o.rm]
  | .strtReg _ _ rn rd o => [rn, rd, o.rm]
  | .ldrImmPre _ _ _ rn rd _ => [rn, rd]
  | .ldrImmPost _ _ rn rd _ => [rn, rd]
  | .ldrtImm _ _ rn rd _ => [rn, rd]
  | .ldrRegPre _ _ _ rn rd o => [rn, rd, o.rm]
  | .ldrRegPost _ _ rn rd o => [rn, rd, o.rm]
  | .ldrtReg _ _ rn rd o => [rn, rd, o.rm]
  | .strbImmPre _ _ _ rn rd _ => [rn, rd]
  | .strbImmPost _ _ rn rd _ => [rn, rd]
  | .strbtImm _ _ rn rd _ => [rn, rd]
  | .strbRegPre _ _ _ rn rd o => [rn, rd, o.rm]
  | .strbRegPost _ _ rn rd o => [rn, rd, o.rm]
  | .strbtReg _ _ rn rd o => [rn, rd, o.rm]
  | .ldrbImmPre _ _ _ rn rd _ => [rn, rd]
  | .ldrbImmPost _ _ rn rd _ => [rn, rd]
  | .ldrbtImm _ _ rn rd _ => [rn, rd]
  | .ldrbRegPre _ _ _ rn rd o => [rn, rd, o.rm]
  | .ldrbRegPost _ _ rn rd o => [rn, rd, o.rm]
  | .ldrbtReg _ _ rn rd o => [rn, rd, o.rm]
  | .undef _ _ _ => []
  | .ldm _ _ _ _ rn list => rn :: regsOf list
  | .ldmRet _ _ _ _ rn list => rn :: regsOf list
  | .ldmUser _ _ _ _ rn _ => [rn]
  | .stm _ _ _ _ rn list => rn :: regsOf list
  | .stmUser _ _ _ _ rn _ => [rn]
  | .stc _ _ _ _ _ _ _ _ _ => []
  | .ldc _ _ _ _ _ _ _ _ _ => []
  | .cdp _ _ _ _ _ _ _ => []
  | .mcr _ _ _ _ _ _ _ => []
  | .mrc _ _ _ _ _ _ _ => []
  | .swi _ _ => []
  | .tLslImm _ _ _ => []
  | .tLsrImm _ _ _ => []
  | .tAsrImm _ _ _ => []
  | .tAddReg _ _ _ => []
  | .tSubReg _ _ _ => []
  | .tAddImm3 _ _ _ => []
  | .tSubImm3 _ _ _ => []
  | .tMovImm _ _ => []
  | .tCmpImm _ _ => []
  | .tAddImm8 _ _ => []
  | .tSubImm8 _ _ => []
  | .tAnd _ _ => []
  | .tEor _ _ => []
  | .tLslReg _ _ => []
  | .tLsrReg _ _ => []
  | .tAsrReg _ _ => []
  | .tAdc _ _ => []
  | .tSbc _ _ => []
  | .tRorReg _ _ => []
  | .tTst _ _ => []
  | .tNeg _ _ => []
  | .tCmpReg _ _ => []
  | .tCmn _ _ => []
  | .tOrr _ _ => []
  | .tMul _ _ => []
  | .tBic _ _ => []
  | .tMvn _ _ => []
  | .tAddHd hd rs => [hi hd, rs]
  | .tAddHs _ hs => [hi hs]
  | .tCmpHd hd rs => [hi hd, rs]
  | .tCmpHs _ hs => [hi hs]
  | .tMovHd hd rs => [hi hd, rs]
  | .tMovHs _ hs => [hi hs]
  | .tBx rs => [rs]
  | .tLdrPc _ _ => []
  | .tStrReg _ _ _ => []
  | .tStrbReg _ _ _ => []
  | .tLdrReg _ _ _ => []
  | .tLdrbReg _ _ _ => []
  | .tStrhReg _ _ _ => []
  | .tLdrhReg _ _ _ => []
  | .tLdsbReg _ _ _ => []
  | .tLdshReg _ _ _ => []
  | .tStrImm _ _ _ => []
  | .tLdrImm _ _ _ => []
  | .tStrbImm _ _ _ => []
  | .tLdrbImm _ _ _ => []
  | .tStrhImm _ _ _ => []
  | .tLdrhImm _ _ _ => []
  | .tStrSp _ _ => [13]
  | .tLdrSp _ _ => [13]
  | .tAddPc _ _ => []
  | .tAddSp _ _ => [13]
  | .tAddSpImm _ => [13]
  | .tSubSpImm _ => [13]
  | .tPush r _ => [13] ++ (if r then [14] else [])
  | .tPop _ _ => [13]
  | .tStmia _ _ => []
  | .tLdmia _ _ => []
  | .tBeq _ => []
  | .tBne _ => []
  | .tBcs _ => []
  | .tBcc _ => []
  | .tBmi _ => []
  | .tBpl _ => []
  | .tBvs _ => []
  | .tBvc _ => []
  | .tBhi _ => []
  | .tBls _ => []
  | .tBge _ => []
  | .tBlt _ => []
  | .tBgt _ => []
  | .tBle _ => []
  | .tSwi _ => []
  | .tB _ => []
  | .tBlHi _ => [14]
  | .tBlLo _ => [14]

/-- The condition of an instruction; a Thumb instruction counts as always (30_encoding R154). -/
def condOf : Instr → Cond
  | .b c _ => c
  | .bl c _ => c
  | .bx c _ => c
  | .andImm c _ _ _ _ => c
  | .andShImm c _ _ _ _ => c
  | .andShReg c _ _ _ _ => c
  | .eorImm c _ _ _ _ => c
  | .eorShImm c _ _ _ _ => c
  | .eorShReg c _ _ _ _ => c
  | .subImm c _ _ _ _ => c
  | .subShImm c _ _ _ _ => c
  | .subShReg c _ _ _ _ => c
  | .rsbImm c _ _ _ _ => c
  | .rsbShImm c _ _ _ _ => c
  | .rsbShReg c _ _ _ _ => c
  | .addImm c _ _ _ _ => c
  | .addShImm c _ _ _ _ => c
  | .addShReg c _ _ _ _ => c
  | .adcImm c _ _ _ _ => c
  | .adcShImm c _ _ _ _ => c
  | .adcShReg c _ _ _ _ => c
  | .sbcImm c _ _ _ _ => c
  | .sbcShImm c _ _ _ _ => c
  | .sbcShReg c _ _ _ _ => c
  | .rscImm c _ _ _ _ => c
  | .rscShImm c _ _ _ _ => c
  | .rscShReg c _ _ _ _ => c
  | .tstImm c _ _ => c
  | .tstShImm c _ _ => c
  | .tstShReg c _ _ => c
  | .teqImm c _ _ => c
  | .teqShImm c _ _ => c
  | .teqShReg c _ _ => c
  | .cmpImm c _ _ => c
  | .cmpShImm c _ _ => c
  | .cmpShReg c _ _ => c
  | .cmnImm c _ _ => c
  | .cmnShImm c _ _ => c
  | .cmnShReg c _ _ => c
  | .orrImm c _ _ _ _ => c
  | .orrShImm c _ _ _ _ => c
  | .orrShReg c _ _ _ _ => c
  | .movImm c _ _ _ => c
  | .movShImm c _ _ _ => c
  | .movShReg c _ _ _ => c
  | .bicImm c _ _ _ _ => c
  | .bicShImm c _ _ _ _ => c
  | .bicShReg c _ _ _ _ => c
  | .mvnImm c _ _ _ => c
  | .mvnShImm c _ _ _ => c
  | .mvnShReg c _ _ _ => c
  | .mrs c _ _ => c
  | .msrReg c _ _ _ => c
  | .msrImm c _ _ _ => c
  | .mul c _ _ _ _ => c
  | .mla c _ _ _ _ _ => c
  | .umull c _ _ _ _ _ => c
  | .umlal c _ _ _ _ _ => c
  | .smull c _ _ _ _ _ => c
  | .smlal c _ _ _ _ _ => c
  | .swp c _ _ _ => c
  | .swpb c _ _ _ => c
  | .strhReg c _ _ _ _ _ _ => c
  | .strhImm c _ _ _ _ _ _ => c
  | .ldrhReg c _ _ _ _ _ _ => c
  | .ldrhImm c _ _ _ _ _ _ => c
  | .ldrsbReg c _ _ _ _ _ _ => c
  | .ldrsbImm c _ _ _ _ _ _ => c
  | .ldrshReg c _ _ _ _ _ _ => c
  | .ldrshImm c _ _ _ _ _ _ => c
  | .strImmPre c _ _ _ _ _ => c
  | .strImmPost c _ _ _ _ => c
  | .strtImm c _ _ _ _ => c
  | .strRegPre c _ _ _ _ _ => c
  | .strRegPost c _ _ _ _ => c
  | .strtReg c _ _ _ _ => c
  | .ldrImmPre c _ _ _ _ _ => c
  | .ldrImmPost c _ _ _ _ => c
  | .ldrtImm c _ _ _ _ => c
  | .ldrRegPre c _ _ _ _ _ => c
  | .ldrRegPost c _ _ _ _ => c
  | .ldrtReg c _ _ _ _ => c
  | .strbImmPre c _ _ _ _ _ => c
  | .strbImmPost c _ _ _ _ => c
  | .strbtImm c _ _ _ _ => c
  | .strbRegPre c _ _ _ _ _ => c
  | .strbRegPost c _ _ _ _ => c
  | .strbtReg c _ _ _ _ => c
  | .ldrbImmPre c _ _ _ _ _ => c
  | .ldrbImmPost c _ _ _ _ => c
  | .ldrbtImm c _ _ _ _ => c
  | .ldrbRegPre c _ _ _ _ _ => c
  | .ldrbRegPost c _ _ _ _ => c
  | .ldrbtReg c _ _ _ _ => c
  | .undef c _ _ => c
  | .ldm c _ _ _ _ _ => c
  | .ldmRet c _ _ _ _ _ => c
  | .ldmUser c _ _ _ _ _ => c
  | .stm c _ _ _ _ _ => c
  | .stmUser c _ _ _ _ _ => c
  | .stc c _ _ _ _ _ _ _ _ => c
  | .ldc c _ _ _ _ _ _ _ _ => c
  | .cdp c _ _ _ _ _ _ => c
  | .mcr c _ _ _ _ _ _ => c
  | .mrc c _ _ _ _ _ _ => c
  | .swi c _ => c
  | .tLslImm _ _ _ => .al
  | .tLsrImm _ _ _ => .al
  | .tAsrImm _ _ _ => .al
  | .tAddReg _ _ _ => .al
  | .tSubReg _ _ _ => .al
  | .tAddImm3 _ _ _ => .al
  | .tSubImm3 _ _ _ => .al
  | .tMovImm _ _ => .al
  | .tCmpImm _ _ => .al
  | .tAddImm8 _ _ => .al
  | .tSubImm8 _ _ => .al
  | .tAnd _ _ => .al
  | .tEor _ _ => .al
  | .tLslReg _ _ => .al
  | .tLsrReg _ _ => .al
  | .tAsrReg _ _ => .al
  | .tAdc _ _ => .al
  | .tSbc _ _ => .al
  | .tRorReg _ _ => .al
  | .tTst _ _ => .al
  | .tNeg _ _ => .al
  | .tCmpReg _ _ => .al
  | .tCmn _ _ => .al
  | .tOrr _ _ => .al
  | .tMul _ _ => .al
  | .tBic _ _ => .al
  | .tMvn _ _ => .al
  | .tAddHd _ _ => .al
  | .tAddHs _ _ => .al
  | .tCmpHd _ _ => .al
  | .tCmpHs _ _ => .al
  | .tMovHd _ _ => .al
  | .tMovHs _ _ => .al
  | .tBx _ => .al
  | .tLdrPc _ _ => .al
  | .tStrReg _ _ _ => .al
  | .tStrbReg _ _ _ => .al
  | .tLdrReg _ _ _ => .al
  | .tLdrbReg _ _ _ => .al
  | .tStrhReg _ _ _ => .al
  | .tLdrhReg _ _ _ => .al
  | .tLdsbReg _ _ _ => .al
  | .tLdshReg _ _ _ => .al
  | .tStrImm _ _ _ => .al
  | .tLdrImm _ _ _ => .al
  | .tStrbImm _ _ _ => .al
  | .tLdrbImm _ _ _ => .al
  | .tStrhImm _ _ _ => .al
  | .tLdrhImm _ _ _ => .al
  | .tStrSp _ _ => .al
  | .tLdrSp _ _ => .al
  | .tAddPc _ _ => .al
  | .tAddSp _ _ => .al
  | .tAddSpImm _ => .al
  | .tSubSpImm _ => .al
  | .tPush _ _ => .al
  | .tPop _ _ => .al
  | .tStmia _ _ => .al
  | .tLdmia _ _ => .al
  | .tBeq _ => .al
  | .tBne _ => .al
  | .tBcs _ => .al
  | .tBcc _ => .al
  | .tBmi _ => .al
  | .tBpl _ => .al
  | .tBvs _ => .al
  | .tBvc _ => .al
  | .tBhi _ => .al
  | .tBls _ => .al
  | .tBge _ => .al
  | .tBlt _ => .al
  | .tBgt _ => .al
  | .tBle _ => .al
  | .tSwi _ => .al
  | .tB _ => .al
  | .tBlHi _ => .al
  | .tBlLo _ => .al

/-- An instruction of the Thumb set (30_encoding R140). -/
def isThumb : Instr → Bool
  | .b _ _ => false
  | .bl _ _ => false
  | .bx _ _ => false
  | .andImm _ _ _ _ _ => false
  | .andShImm _ _ _ _ _ => false
  | .andShReg _ _ _ _ _ => false
  | .eorImm _ _ _ _ _ => false
  | .eorShImm _ _ _ _ _ => false
  | .eorShReg _ _ _ _ _ => false
  | .subImm _ _ _ _ _ => false
  | .subShImm _ _ _ _ _ => false
  | .subShReg _ _ _ _ _ => false
  | .rsbImm _ _ _ _ _ => false
  | .rsbShImm _ _ _ _ _ => false
  | .rsbShReg _ _ _ _ _ => false
  | .addImm _ _ _ _ _ => false
  | .addShImm _ _ _ _ _ => false
  | .addShReg _ _ _ _ _ => false
  | .adcImm _ _ _ _ _ => false
  | .adcShImm _ _ _ _ _ => false
  | .adcShReg _ _ _ _ _ => false
  | .sbcImm _ _ _ _ _ => false
  | .sbcShImm _ _ _ _ _ => false
  | .sbcShReg _ _ _ _ _ => false
  | .rscImm _ _ _ _ _ => false
  | .rscShImm _ _ _ _ _ => false
  | .rscShReg _ _ _ _ _ => false
  | .tstImm _ _ _ => false
  | .tstShImm _ _ _ => false
  | .tstShReg _ _ _ => false
  | .teqImm _ _ _ => false
  | .teqShImm _ _ _ => false
  | .teqShReg _ _ _ => false
  | .cmpImm _ _ _ => false
  | .cmpShImm _ _ _ => false
  | .cmpShReg _ _ _ => false
  | .cmnImm _ _ _ => false
  | .cmnShImm _ _ _ => false
  | .cmnShReg _ _ _ => false
  | .orrImm _ _ _ _ _ => false
  | .orrShImm _ _ _ _ _ => false
  | .orrShReg _ _ _ _ _ => false
  | .movImm _ _ _ _ => false
  | .movShImm _ _ _ _ => false
  | .movShReg _ _ _ _ => false
  | .bicImm _ _ _ _ _ => false
  | .bicShImm _ _ _ _ _ => false
  | .bicShReg _ _ _ _ _ => false
  | .mvnImm _ _ _ _ => false
  | .mvnShImm _ _ _ _ => false
  | .mvnShReg _ _ _ _ => false
  | .mrs _ _ _ => false
  | .msrReg _ _ _ _ => false
  | .msrImm _ _ _ _ => false
  | .mul _ _ _ _ _ => false
  | .mla _ _ _ _ _ _ => false
  | .umull _ _ _ _ _ _ => false
  | .umlal _ _ _ _ _ _ => false
  | .smull _ _ _ _ _ _ => false
  | .smlal _ _ _ _ _ _ => false
  | .swp _ _ _ _ => false
  | .swpb _ _ _ _ => false
  | .strhReg _ _ _ _ _ _ _ => false
  | .strhImm _ _ _ _ _ _ _ => false
  | .ldrhReg _ _ _ _ _ _ _ => false
  | .ldrhImm _ _ _ _ _ _ _ => false
  | .ldrsbReg _ _ _ _ _ _ _ => false
  | .ldrsbImm _ _ _ _ _ _ _ => false
  | .ldrshReg _ _ _ _ _ _ _ => false
  | .ldrshImm _ _ _ _ _ _ _ => false
  | .strImmPre _ _ _ _ _ _ => false
  | .strImmPost _ _ _ _ _ => false
  | .strtImm _ _ _ _ _ => false
  | .strRegPre _ _ _ _ _ _ => false
  | .strRegPost _ _ _ _ _ => false
  | .strtReg _ _ _ _ _ => false
  | .ldrImmPre _ _ _ _ _ _ => false
  | .ldrImmPost _ _ _ _ _ => false
  | .ldrtImm _ _ _ _ _ => false
  | .ldrRegPre _ _ _ _ _ _ => false
  | .ldrRegPost _ _ _ _ _ => false
  | .ldrtReg _ _ _ _ _ => false
  | .strbImmPre _ _ _ _ _ _ => false
  | .strbImmPost _ _ _ _ _ => false
  | .strbtImm _ _ _ _ _ => false
  | .strbRegPre _ _ _ _ _ _ => false
  | .strbRegPost _ _ _ _ _ => false
  | .strbtReg _ _ _ _ _ => false
  | .ldrbImmPre _ _ _ _ _ _ => false
  | .ldrbImmPost _ _ _ _ _ => false
  | .ldrbtImm _ _ _ _ _ => false
  | .ldrbRegPre _ _ _ _ _ _ => false
  | .ldrbRegPost _ _ _ _ _ => false
  | .ldrbtReg _ _ _ _ _ => false
  | .undef _ _ _ => false
  | .ldm _ _ _ _ _ _ => false
  | .ldmRet _ _ _ _ _ _ => false
  | .ldmUser _ _ _ _ _ _ => false
  | .stm _ _ _ _ _ _ => false
  | .stmUser _ _ _ _ _ _ => false
  | .stc _ _ _ _ _ _ _ _ _ => false
  | .ldc _ _ _ _ _ _ _ _ _ => false
  | .cdp _ _ _ _ _ _ _ => false
  | .mcr _ _ _ _ _ _ _ => false
  | .mrc _ _ _ _ _ _ _ => false
  | .swi _ _ => false
  | .tLslImm _ _ _ => true
  | .tLsrImm _ _ _ => true
  | .tAsrImm _ _ _ => true
  | .tAddReg _ _ _ => true
  | .tSubReg _ _ _ => true
  | .tAddImm3 _ _ _ => true
  | .tSubImm3 _ _ _ => true
  | .tMovImm _ _ => true
  | .tCmpImm _ _ => true
  | .tAddImm8 _ _ => true
  | .tSubImm8 _ _ => true
  | .tAnd _ _ => true
  | .tEor _ _ => true
  | .tLslReg _ _ => true
  | .tLsrReg _ _ => true
  | .tAsrReg _ _ => true
  | .tAdc _ _ => true
  | .tSbc _ _ => true
  | .tRorReg _ _ => true
  | .tTst _ _ => true
  | .tNeg _ _ => true
  | .tCmpReg _ _ => true
  | .tCmn _ _ => true
  | .tOrr _ _ => true
  | .tMul _ _ => true
  | .tBic _ _ => true
  | .tMvn _ _ => true
  | .tAddHd _ _ => true
  | .tAddHs _ _ => true
  | .tCmpHd _ _ => true
  | .tCmpHs _ _ => true
  | .tMovHd _ _ => true
  | .tMovHs _ _ => true
  | .tBx _ => true
  | .tLdrPc _ _ => true
  | .tStrReg _ _ _ => true
  | .tStrbReg _ _ _ => true
  | .tLdrReg _ _ _ => true
  | .tLdrbReg _ _ _ => true
  | .tStrhReg _ _ _ => true
  | .tLdrhReg _ _ _ => true
  | .tLdsbReg _ _ _ => true
  | .tLdshReg _ _ _ => true
  | .tStrImm _ _ _ => true
  | .tLdrImm _ _ _ => true
  | .tStrbImm _ _ _ => true
  | .tLdrbImm _ _ _ => true
  | .tStrhImm _ _ _ => true
  | .tLdrhImm _ _ _ => true
  | .tStrSp _ _ => true
  | .tLdrSp _ _ => true
  | .tAddPc _ _ => true
  | .tAddSp _ _ => true
  | .tAddSpImm _ => true
  | .tSubSpImm _ => true
  | .tPush _ _ => true
  | .tPop _ _ => true
  | .tStmia _ _ => true
  | .tLdmia _ _ => true
  | .tBeq _ => true
  | .tBne _ => true
  | .tBcs _ => true
  | .tBcc _ => true
  | .tBmi _ => true
  | .tBpl _ => true
  | .tBvs _ => true
  | .tBvc _ => true
  | .tBhi _ => true
  | .tBls _ => true
  | .tBge _ => true
  | .tBlt _ => true
  | .tBgt _ => true
  | .tBle _ => true
  | .tSwi _ => true
  | .tB _ => true
  | .tBlHi _ => true
  | .tBlLo _ => true

/-- A register that has a copy of its own in a mode: R13 and R14, and in FIQ mode R8 to R12 (R314). -/
def banked (m : Mode) (r : Reg) : Bool := r == 13 || r == 14 || (m == .fiq && 8 ≤ r.toNat && r.toNat ≤ 12)

/-- The instruction is executed and uses a banked register (R314). -/
def usesBanked (i : Instr) (p : Psr) : Bool := condPassed (condOf i) p && (highUsed i).any (banked p.mode)

end Sys2Proof.Machine
end

