-- ==== Sys2Proof/Machine/Fetch.lean ====
section
/-! DEFINITION. What happens before an instruction's own effect: the instruction boundary with its interrupts and reset, the
fetch and its abort, the prefetched slots, decoding, and the hazard check (spec/60_exceptions.md R473, R479, 20_memory R81,
R128, 70_reset_and_hazards R531). -/

namespace Sys2Proof.Machine

/-- What the boundary and the fetch lead to. -/
inductive Fetched where
  /-- An exception or reset was taken: that is the step. -/
  | taken (s : State)
  /-- A refusal. -/
  | stop (r : Refusal)
  /-- A fault. -/
  | fault (f : Fault)
  /-- The instruction at the pc, and the state it executes in. -/
  | run (i : Instr) (s : State)
  deriving DecidableEq, Repr

/-- The lines at this boundary; all HIGH where none are given (log entry 7). -/
def lines (s : State) : Inputs :=
  match s.inputs with
  | [] => Inputs.idle
  | x :: _ => x

/-- The boundary consumes its input; a step's bus record starts empty. -/
def beginStep (s : State) : State := { s with inputs := s.inputs.tail, bus := [] }

/-- Reset, then FIQ, then IRQ, each where its line is LOW and it is not masked (60_exceptions R470, R479). -/
def boundary (x : Inputs) (s : State) : Option State :=
  if !x.nRESET then some (takeReset s)
  else if !x.nFIQ && !s.cpsr.f then some (takeBefore .fiq s)
  else if !x.nIRQ && !s.cpsr.i then some (takeBefore .irq s)
  else none

/-- A word in ARM state, a halfword in Thumb state (20_memory R102). -/
def fetchSize (s : State) : Size := if s.cpsr.t then .half else .word

/-- The pins of the fetch at the pc. -/
def fetchAccess (s : State) : Access :=
  { addr := s.pc, size := fetchSize s, kind := .fetch, priv := s.cpsr.mode.privileged, write := false, locked := false,
    thumb := s.cpsr.t, mode := s.cpsr.mode, dout := none }

/-- The fetch at the pc is aborted (60_exceptions R473). -/
def fetchAborts (s : State) : Bool := s.env.aborts s.pc (fetchSize s) .fetch s.cpsr.mode.privileged false

/-- What a slot holds now; a device region has no contents to hold. -/
def snapshot (s : State) (a : Word) : Option Word :=
  match s.env.regionAt a with
  | some .device => none
  | _ => some (memRead s.env.bigEndian s.mem a (fetchSize s))

/-- The instruction word at the pc. A slot that was written while it was prefetched is a race: the old or the new contents,
by a free bit (20_memory R128, 92_eei_decisions D10; log entry 11). -/
def fetchWord (s : State) : Word × State :=
  let r := readMem s s.pc (fetchSize s)
  match s.pipe.first with
  | none => r
  | some old => if old = r.1 then r else (if (drawBit s).1 then old else r.1, (drawBit s).2)

/-- The two slots after the pc as they stand prefetched while the instruction at the pc executes (10_state R50). -/
def prefetch (s : State) : Pipe :=
  { first := match s.pipe.second with | some v => some v | none => snapshot s (nextPc s)
    second := snapshot s (nextPc s + instrBytes s) }

/-- The decoder of the state (30_encoding R140). -/
def decodeFetched (thumb : Bool) (w : Word) : Decoded := if thumb then decodeThumb (w.setWidth 16) else decodeArm w

/-- The refusal of a rejected word. -/
def refusalOf : DecodeError → Refusal
  | .reservedCondition => .reservedCondition
  | .unallocatedArm => .unallocatedArm
  | .shouldBeBits => .shouldBeBits
  | .unallocatedThumb => .unallocatedThumb
  | .truncated => .unallocatedArm

/-- The pc is aligned for the state (20_memory R86). -/
def pcAligned (s : State) : Bool := !misaligned s.pc (fetchSize s)

/-- The state an instruction executes in, once fetched. -/
def ready (s : State) : State := { s with pipe := prefetch s, userLdm := false }

/-- Decode the fetched word; `hazard` is the state's userLdm before the fetch. -/
def dispatch (hazard : Bool) (w : Word) (s : State) : Fetched :=
  match decodeFetched s.cpsr.t w with
  | .error e => .stop (refusalOf e)
  | .ok i => if hazard && usesBanked i s.cpsr then .stop .bankedAfterUserLdm else .run i (ready s)

/-- The fetch of a step with no interrupt. -/
def fetchAt (s : State) : Fetched :=
  if !pcAligned s then .fault .misalignedFetch
  else if fetchAborts s then .taken (takeBefore .prefetchAbort (record s (fetchAccess s)))
  else dispatch s.userLdm (fetchWord (record s (fetchAccess s))).1 (fetchWord (record s (fetchAccess s))).2

/-- The boundary, then the fetch. -/
def fetch (s : State) : Fetched :=
  match boundary (lines s) (beginStep s) with
  | some t => .taken t
  | none => fetchAt (beginStep s)

/-- `w`'s low bits stored where the next fetch reads, in the state they are of: see State.withFetchWord (log entry 26). -/
def placeWord (s : State) (nbits w : Nat) : State :=
  let thumb := decide (nbits ≤ 16)
  let a := if thumb then halfMask s.pc else wordMask s.pc
  let size := if thumb then Size.half else Size.word
  let priv := s.cpsr.mode.privileged
  { s with
    pc := a
    cpsr := { s.cpsr with t := thumb }
    mem := memWrite s.env.bigEndian s.mem a (BitVec.ofNat 32 (w % 2 ^ nbits)) size
    pipe := Pipe.empty
    userLdm := false
    env := { s.env with
      abortRules := s.env.abortRules.filter (fun r => !r.hits a size .fetch priv false)
      regions := s.env.regions.filter (fun r => !(r.lo ≤ a.toNat && a.toNat < r.hi)) }
    inputs := match s.inputs with | [] => [] | _ :: rest => Inputs.idle :: rest }

end Sys2Proof.Machine
end

