-- ==== Sys2Proof/Machine/Abandon.lean ====
section
/-! DEFINITION. A reset in the middle of a step (spec/70_reset_and_hazards.md R522): the core abandons what it is doing at any
point, so the step may be left half done, and then the reset is taken. -/

namespace Sys2Proof.Machine

/-- Whether a part of an abandoned step had been done: a free bit for each part, the draws counted from `d`. -/
def pick {α : Type} (d k : Nat) (old new : α) : α := if Config.freeBit (d + k) then new else old

/-- Each register as it was or as the step would have left it (log entry 34). -/
def mixRegs (d : Nat) (old new : Regs) : Regs := Regs.ofFn (fun p => pick d p.ctorIdx (old.get p) (new.get p))

/-- Each SPSR as it was or as the step would have left it (log entry 34). -/
def mixSpsrs (d : Nat) (old new : Spsrs) : Spsrs :=
  { fiq := pick d 30 old.fiq new.fiq
    irq := pick d 31 old.irq new.irq
    svc := pick d 32 old.svc new.svc
    abt := pick d 33 old.abt new.abt
    und := pick d 34 old.und new.und }

/-- What one bus access of a step does to memory: an aborted write and a read do nothing (20_memory R95, 45_arm_block_swap R309). -/
def replay (s : State) (x : Access) : State :=
  match x.dout with
  | some v => if s.env.aborts x.addr x.size x.kind x.priv true then s else writeMem s x.addr x.size v
  | none => s

/-- What is left of a step from `s` that would have ended in `t`, abandoned when `n` of its data accesses were made: those
accesses (in memory, the words of an STM they stored), and of the registers, the SPSRs and the CPSR any part. -/
def abandon (n : Nat) (s t : State) : State :=
  { (t.bus.take (n + 1)).foldl replay s with
    regs := mixRegs t.draws s.regs t.regs
    spsrs := mixSpsrs t.draws s.spsrs t.spsrs
    cpsr := pick t.draws 35 s.cpsr t.cpsr
    bus := t.bus.take (n + 1)
    inputs := t.inputs
    draws := t.draws + 36 }

/-- The end of a step: where nRESET fell during it, what it has done is left and the reset is taken; a step that stops, stops. -/
def endStep (s : State) (r : Result) : Result :=
  match r, (lines s).nRESET, (lines s).resetAfter with
  | .next t, true, some n => .next (takeReset (abandon n (beginStep s) t))
  | r, _, _ => r

end Sys2Proof.Machine
end

