-- ==== Sys2Proof/Machine/Transfer.lean ====
section
/-! DEFINITION. What moves in a single transfer, a block transfer and a swap, once for every instruction that makes one
(spec/44_arm_load_store.md R267 to R290, 45_arm_block_swap R301 to R312, 48_thumb_load_store R415, R424 to R427). -/

namespace Sys2Proof.Machine

/-- What a load does with the value read: word, unsigned or signed halfword or byte. -/
inductive LoadKind where
  | word | half | byte | signedHalf | signedByte
  deriving DecidableEq, Repr

/-- The size of a load (20_memory R92). -/
def LoadKind.size : LoadKind → Size
  | .word => .word
  | .half => .half
  | .byte => .byte
  | .signedHalf => .half
  | .signedByte => .byte

/-- The value a load writes, from the zero-extended value read. -/
def LoadKind.extend (k : LoadKind) (v : Word) : Word :=
  match k with
  | .word => v
  | .half => v
  | .byte => v
  | .signedHalf => (v.setWidth 16).signExtend 32
  | .signedByte => (v.setWidth 8).signExtend 32

/-- A loaded value goes to Rd; to R15 it is a branch with bits [1:0] ignored (44_arm_load_store R270). -/
def loadTo (rd : Reg) (v : Word) (s : State) : Result :=
  if rd = 15 then .next (branchTo (wordMask v) s) else advance (writeReg s rd v)

/-- A load of one register (44_arm_load_store R267, R290): the access; an aborted one still writes the base back, then Data Abort;
a misaligned one that is not aborted is refused. -/
def loadSingle (k : LoadKind) (priv : Bool) (rn rd : Reg) (x : Address) (s : State) : Result :=
  let s1 := record s (accessOf s x.addr k.size priv false false none)
  if abortsData s x.addr k.size priv false then .next (takeDataAbort (writeBack s1 rn x.wb))
  else if misaligned x.addr k.size then .refused .misalignedData
  else
    let r := readMem s1 x.addr k.size
    loadTo rd (k.extend r.1) (writeBack r.2 rn x.wb)

/-- A store of one register (44_arm_load_store R268, R290): the value is read before the base is written back; an aborted store
leaves memory as it was. -/
def storeSingle (size : Size) (priv : Bool) (rn rd : Reg) (x : Address) (s : State) : Result :=
  let v := storeValue s s.cpsr.mode rd
  let s1 := record s (accessOf s x.addr size priv true false (some (lanes v size)))
  if abortsData s x.addr size priv true then .next (takeDataAbort (writeBack s1 rn x.wb))
  else if misaligned x.addr size then .refused .misalignedData
  else advance (writeBack (writeMem s1 x.addr size v) rn x.wb)

/-- A swap (45_arm_block_swap R310, R311): a locked read, then a locked write; either may abort, and then Rd is unchanged. -/
def swap (size : Size) (rn rd rm : Reg) (s : State) : Result :=
  let a := readReg s rn
  let v := readReg s rm
  let priv := s.cpsr.mode.privileged
  let s1 := record s (accessOf s a size priv false true none)
  if abortsData s a size priv false then .next (takeDataAbort s1)
  else if misaligned a size then .refused .misalignedData
  else
    let r := readMem s1 a size
    let s2 := record r.2 (accessOf s a size priv true true (some (lanes v size)))
    if abortsData s a size priv true then .next (takeDataAbort s2)
    else advance (writeReg (writeMem s2 a size v) rd r.1)

/-- The addresses of a block of `n` words, ascending (45_arm_block_swap R301). -/
def blockAddrs (start : Word) : Nat → List Word
  | 0 => []
  | n + 1 => start :: blockAddrs (start + 4) n

/-- A block runs past the top of the address space (10_state R35). -/
def blockWraps (start : Word) (n : Nat) : Bool := 2 ^ 32 < start.toNat + 4 * n

/-- Why a block transfer has no meaning: its addresses wrap, or they are misaligned and the platform does not abort them all. -/
def blockRefusal (s : State) (start : Word) (n : Nat) (write : Bool) : Option Refusal :=
  if blockWraps start n then some .blockWraps
  else if !wordAligned start
      && !(blockAddrs start n).all (fun a => abortsData s a .word s.cpsr.mode.privileged write) then some .misalignedData
  else none

/-- Some access of the block is aborted. -/
def blockAborts (s : State) (start : Word) (n : Nat) (write : Bool) : Bool :=
  (blockAddrs start n).any (fun a => abortsData s a .word s.cpsr.mode.privileged write)

/-- The words of a block read in ascending order. -/
def readWords : State → List Word → List Word × State
  | s, [] => ([], s)
  | s, a :: rest =>
    let r := readMem s a .word
    let t := readWords r.2 rest
    (r.1 :: t.1, t.2)

/-- Registers of a mode's bank written one after another; R15 is never among them. -/
def writeRegs (m : Mode) : State → List (Reg × Word) → State
  | s, [] => s
  | s, (r, v) :: rest => writeRegs m (writeBank s m r v) rest

/-- The reads of a block on the bus. -/
def recordReads : State → List Word → State
  | s, [] => s
  | s, a :: rest => recordReads (record s (accessOf s a .word s.cpsr.mode.privileged false false none)) rest

/-- The registers of an aborted LDM take free values, each its own (45_arm_block_swap R309). -/
def freeRegs (m : Mode) : State → List Reg → State
  | s, [] => s
  | s, r :: rest => freeRegs m (writeBank (drawWord s).2 m r (drawWord s).1) rest

/-- The listed registers that an aborted LDM may have loaded: not R15 and not the base (R309). -/
def spoiled (s : State) (m : Mode) (rn : Reg) (regs : List Reg) : List Reg :=
  regs.filter (fun r => r != 15 && bank m r != bank s.cpsr.mode rn)

/-- How a block load ends when nothing aborted. -/
inductive BlockEnd where
  /-- R15, if loaded, is an ARM-state address with bits [1:0] ignored (R302). -/
  | arm
  /-- R15, if loaded, is a Thumb-state address with bit 0 ignored (48_thumb_load_store R425). -/
  | thumb
  /-- R15 is loaded and the CPSR restored (R303). -/
  | ret
  /-- A User-bank load: R15 is not in the list, and the next instruction must use no banked register (R304, R314). -/
  | user
  deriving DecidableEq, Repr

/-- The pc after a block load, R15's value being the last. -/
def endBlock (e : BlockEnd) (pcValue : Option Word) (s : State) : Result :=
  match pcValue with
  | none => if e = .user then advance { s with userLdm := true } else advance s
  | some v =>
    match e with
    | .arm => .next (branchTo (wordMask v) s)
    | .thumb => .next (branchTo (halfMask v) s)
    | .ret => exceptionReturn true v s
    | .user => .next (branchTo (wordMask v) s)

/-- A block load of `regs` into the bank of mode `m` from `start` up (45_arm_block_swap R302 to R304, R309): every access is
made; with an abort the base ends as write-back says, the loaded registers are free and R15 and the CPSR stay. -/
def blockLoad (e : BlockEnd) (m : Mode) (rn : Reg) (regs : List Reg) (start : Word) (wb : Option Word) (s : State) : Result :=
  let n := regs.length
  match blockRefusal s start n false with
  | some why => .refused why
  | none =>
    let s1 := recordReads s (blockAddrs start n)
    if blockAborts s start n false then .next (takeDataAbort (freeRegs m (writeBack s1 rn wb) (spoiled s m rn regs)))
    else
      let r := readWords s1 (blockAddrs start n)
      let loaded := regs.zip r.1
      endBlock e (loaded.lookup 15) (writeRegs m (writeBack r.2 rn wb) (loaded.filter (fun x => x.1 != 15)))

/-- The writes of a block in ascending order: an aborted word is driven and not stored (45_arm_block_swap R305, R309). -/
def storeWords : State → List (Word × Word) → State
  | s, [] => s
  | s, (a, v) :: rest =>
    let s1 := record s (accessOf s a .word s.cpsr.mode.privileged true false (some v))
    storeWords (if abortsData s a .word s.cpsr.mode.privileged true then s1 else writeMem s1 a .word v) rest

/-- A block store of `regs` of the bank of mode `m` from `start` up (R305, R306, R309): the base is written back, abort or not. -/
def blockStore (m : Mode) (rn : Reg) (regs : List Reg) (start : Word) (wb : Option Word) (s : State) : Result :=
  let n := regs.length
  match blockRefusal s start n true with
  | some why => .refused why
  | none =>
    let s1 := storeWords s ((blockAddrs start n).zip (regs.map (storeValue s m)))
    if blockAborts s start n true then .next (takeDataAbort (writeBack s1 rn wb)) else advance (writeBack s1 rn wb)

end Sys2Proof.Machine
end

