-- ==== Sys2Proof/Machine/ArmBlockSwap.lean ====
section
/-! DEFINITION. ARM LDM, STM, SWP and SWPB (spec/45_arm_block_swap.md R301 to R314). -/

namespace Sys2Proof.Machine

/-- The new base where W = 1. -/
def blockWb (u w : Bool) (base : Word) (n : Nat) : Option Word := if w then some (blockBase u base n) else none

/-- LDM of a list into the bank of the current mode (R301, R302). -/
def loadList (e : BlockEnd) (p u w : Bool) (rn : Reg) (regs : List Reg) (s : State) : Result :=
  blockLoad e s.cpsr.mode rn regs (blockStart p u (readReg s rn) regs.length) (blockWb u w (readReg s rn) regs.length) s

/-- STM of a list from the bank of the current mode (R301, R305). -/
def storeList (p u w : Bool) (rn : Reg) (regs : List Reg) (s : State) : Result :=
  blockStore s.cpsr.mode rn regs (blockStart p u (readReg s rn) regs.length) (blockWb u w (readReg s rn) regs.length) s

/-- A mode with a bank of its own may transfer the User bank (R304, R306). -/
def hasUserBank (m : Mode) : Bool := m != .usr && m != .sys

/-- LDM, S = 0 (R302). -/
def execLdm (c : Cond) (p u w : Bool) (rn : Reg) (list : BitVec 16) (s : State) : Result :=
  conditional c (ldmRule w rn list) s (loadList .arm p u w rn (regsOf list) s)

/-- LDM with ^ and R15: exception return, in a mode with an SPSR (R303). -/
def execLdmRet (c : Cond) (p u w : Bool) (rn : Reg) (list : BitVec 15) (s : State) : Result :=
  conditional c (ldmRule w rn (1#1 ++ list)) s
    (if hasUserBank s.cpsr.mode then loadList .ret p u w rn (regsOf (1#1 ++ list)) s else .refused .noSpsr)

/-- LDM with ^ and without R15: the User bank (R304). -/
def execLdmUser (c : Cond) (p u w : Bool) (rn : Reg) (list : BitVec 15) (s : State) : Result :=
  conditional c (userBankRule w rn list) s
    (if hasUserBank s.cpsr.mode then
      blockLoad .user .usr rn (regsOf list) (blockStart p u (readReg s rn) (regsOf list).length) none s
    else .refused .userBankMode)

/-- STM, S = 0 (R305). -/
def execStm (c : Cond) (p u w : Bool) (rn : Reg) (list : BitVec 16) (s : State) : Result :=
  conditional c (stmRule w rn list) s (storeList p u w rn (regsOf list) s)

/-- STM with ^: the User bank (R306). -/
def execStmUser (c : Cond) (p u w : Bool) (rn : Reg) (list : BitVec 16) (s : State) : Result :=
  conditional c (userBankRule w rn list) s
    (if hasUserBank s.cpsr.mode then
      blockStore .usr rn (regsOf list) (blockStart p u (readReg s rn) (regsOf list).length) none s
    else .refused .userBankMode)

/-- SWP (R310). -/
def execSwp (c : Cond) (rn rd rm : Reg) (s : State) : Result :=
  conditional c (swapRule rn rd rm) s (swap .word rn rd rm s)

/-- SWPB (R311). -/
def execSwpb (c : Cond) (rn rd rm : Reg) (s : State) : Result :=
  conditional c (swapRule rn rd rm) s (swap .byte rn rd rm s)

end Sys2Proof.Machine
end

