-- ==== Sys2Proof/Machine/ArmBranch.lean ====
section
/-! DEFINITION. ARM B, BL and BX (spec/40_arm_branch.md). -/

namespace Sys2Proof.Machine

/-- B (R191). -/
def execB (c : Cond) (off : BitVec 24) (s : State) : Result :=
  conditional c none s (.next (branchTo (s.pc + 8 + branchOffset off 2) s))

/-- BL: R14 of the current mode takes the address of the next instruction (R192). -/
def execBl (c : Cond) (off : BitVec 24) (s : State) : Result :=
  conditional c none s (.next (branchTo (s.pc + 8 + branchOffset off 2) (writeReg s 14 (s.pc + 4))))

/-- BX: bit 0 of Rn is the new T (R194). -/
def execBx (c : Cond) (rn : Reg) (s : State) : Result :=
  conditional c (pcRule [rn]) s (branchExchange (readReg s rn) s)

end Sys2Proof.Machine
end

