-- ==== Sys2Proof/Machine/ArmDataProc.lean ====
section
/-! DEFINITION. The sixteen ARM data-processing operations in their three operand forms (spec/41_arm_data_processing.md R200 to R224). -/

namespace Sys2Proof.Machine

/-- The immediate operand (R202). -/
def immForm (s : State) (o : RotImm) : Shifted := immOperand o s.cpsr.c

/-- A register shifted by an immediate; R15 reads as pc + 8 (R203, R206). -/
def shImmForm (s : State) (o : ShImm) : Shifted := shiftImm o.type (readReg s o.rm) o.amount s.cpsr.c

/-- A register shifted by the low byte of another (R204). -/
def shRegForm (s : State) (o : ShReg) : Shifted :=
  shiftReg o.type (readReg s o.rm) ((readReg s o.rs).setWidth 8) s.cpsr.c

/-- An operation that writes Rd (R200). Rd = 15 is a branch, and with S = 1 the exception return (R207); a MOV or MVN ignores
the first operand `a`. -/
def dataProcess (op : AluOp) (sf : Bool) (a : Word) (rd : Reg) (o : Shifted) (s : State) : Result :=
  let r := alu op a o s.cpsr
  if rd = 15 then
    if sf then exceptionReturn false r.result s else branchAligned r.result s
  else advance { writeReg s rd r.result with cpsr := flagsIf sf r s.cpsr }

/-- TST, TEQ, CMP, CMN: only the flags (R200, R216 to R219). -/
def compare (op : AluOp) (a : Word) (o : Shifted) (s : State) : Result :=
  advance { s with cpsr := flagsOf (alu op a o s.cpsr) s.cpsr }

/-- AND, immediate operand (R208, R202). -/
def execAndImm (c : Cond) (sf : Bool) (rn rd : Reg) (o : RotImm) (s : State) : Result :=
  conditional c none s (dataProcess .and sf (readReg s rn) rd (immForm s o) s)

/-- AND, register shifted by an immediate (R208, R203). -/
def execAndShImm (c : Cond) (sf : Bool) (rn rd : Reg) (o : ShImm) (s : State) : Result :=
  conditional c none s (dataProcess .and sf (readReg s rn) rd (shImmForm s o) s)

/-- AND, register shifted by a register (R208, R204). -/
def execAndShReg (c : Cond) (sf : Bool) (rn rd : Reg) (o : ShReg) (s : State) : Result :=
  conditional c (pcRule [rn, rd, o.rs, o.rm]) s (dataProcess .and sf (readReg s rn) rd (shRegForm s o) s)

/-- EOR, immediate operand (R209, R202). -/
def execEorImm (c : Cond) (sf : Bool) (rn rd : Reg) (o : RotImm) (s : State) : Result :=
  conditional c none s (dataProcess .eor sf (readReg s rn) rd (immForm s o) s)

/-- EOR, register shifted by an immediate (R209, R203). -/
def execEorShImm (c : Cond) (sf : Bool) (rn rd : Reg) (o : ShImm) (s : State) : Result :=
  conditional c none s (dataProcess .eor sf (readReg s rn) rd (shImmForm s o) s)

/-- EOR, register shifted by a register (R209, R204). -/
def execEorShReg (c : Cond) (sf : Bool) (rn rd : Reg) (o : ShReg) (s : State) : Result :=
  conditional c (pcRule [rn, rd, o.rs, o.rm]) s (dataProcess .eor sf (readReg s rn) rd (shRegForm s o) s)

/-- SUB, immediate operand (R210, R202). -/
def execSubImm (c : Cond) (sf : Bool) (rn rd : Reg) (o : RotImm) (s : State) : Result :=
  conditional c none s (dataProcess .sub sf (readReg s rn) rd (immForm s o) s)

/-- SUB, register shifted by an immediate (R210, R203). -/
def execSubShImm (c : Cond) (sf : Bool) (rn rd : Reg) (o : ShImm) (s : State) : Result :=
  conditional c none s (dataProcess .sub sf (readReg s rn) rd (shImmForm s o) s)

/-- SUB, register shifted by a register (R210, R204). -/
def execSubShReg (c : Cond) (sf : Bool) (rn rd : Reg) (o : ShReg) (s : State) : Result :=
  conditional c (pcRule [rn, rd, o.rs, o.rm]) s (dataProcess .sub sf (readReg s rn) rd (shRegForm s o) s)

/-- RSB, immediate operand (R211, R202). -/
def execRsbImm (c : Cond) (sf : Bool) (rn rd : Reg) (o : RotImm) (s : State) : Result :=
  conditional c none s (dataProcess .rsb sf (readReg s rn) rd (immForm s o) s)

/-- RSB, register shifted by an immediate (R211, R203). -/
def execRsbShImm (c : Cond) (sf : Bool) (rn rd : Reg) (o : ShImm) (s : State) : Result :=
  conditional c none s (dataProcess .rsb sf (readReg s rn) rd (shImmForm s o) s)

/-- RSB, register shifted by a register (R211, R204). -/
def execRsbShReg (c : Cond) (sf : Bool) (rn rd : Reg) (o : ShReg) (s : State) : Result :=
  conditional c (pcRule [rn, rd, o.rs, o.rm]) s (dataProcess .rsb sf (readReg s rn) rd (shRegForm s o) s)

/-- ADD, immediate operand (R212, R202). -/
def execAddImm (c : Cond) (sf : Bool) (rn rd : Reg) (o : RotImm) (s : State) : Result :=
  conditional c none s (dataProcess .add sf (readReg s rn) rd (immForm s o) s)

/-- ADD, register shifted by an immediate (R212, R203). -/
def execAddShImm (c : Cond) (sf : Bool) (rn rd : Reg) (o : ShImm) (s : State) : Result :=
  conditional c none s (dataProcess .add sf (readReg s rn) rd (shImmForm s o) s)

/-- ADD, register shifted by a register (R212, R204). -/
def execAddShReg (c : Cond) (sf : Bool) (rn rd : Reg) (o : ShReg) (s : State) : Result :=
  conditional c (pcRule [rn, rd, o.rs, o.rm]) s (dataProcess .add sf (readReg s rn) rd (shRegForm s o) s)

/-- ADC, immediate operand (R213, R202). -/
def execAdcImm (c : Cond) (sf : Bool) (rn rd : Reg) (o : RotImm) (s : State) : Result :=
  conditional c none s (dataProcess .adc sf (readReg s rn) rd (immForm s o) s)

/-- ADC, register shifted by an immediate (R213, R203). -/
def execAdcShImm (c : Cond) (sf : Bool) (rn rd : Reg) (o : ShImm) (s : State) : Result :=
  conditional c none s (dataProcess .adc sf (readReg s rn) rd (shImmForm s o) s)

/-- ADC, register shifted by a register (R213, R204). -/
def execAdcShReg (c : Cond) (sf : Bool) (rn rd : Reg) (o : ShReg) (s : State) : Result :=
  conditional c (pcRule [rn, rd, o.rs, o.rm]) s (dataProcess .adc sf (readReg s rn) rd (shRegForm s o) s)

/-- SBC, immediate operand (R214, R202). -/
def execSbcImm (c : Cond) (sf : Bool) (rn rd : Reg) (o : RotImm) (s : State) : Result :=
  conditional c none s (dataProcess .sbc sf (readReg s rn) rd (immForm s o) s)

/-- SBC, register shifted by an immediate (R214, R203). -/
def execSbcShImm (c : Cond) (sf : Bool) (rn rd : Reg) (o : ShImm) (s : State) : Result :=
  conditional c none s (dataProcess .sbc sf (readReg s rn) rd (shImmForm s o) s)

/-- SBC, register shifted by a register (R214, R204). -/
def execSbcShReg (c : Cond) (sf : Bool) (rn rd : Reg) (o : ShReg) (s : State) : Result :=
  conditional c (pcRule [rn, rd, o.rs, o.rm]) s (dataProcess .sbc sf (readReg s rn) rd (shRegForm s o) s)

/-- RSC, immediate operand (R215, R202). -/
def execRscImm (c : Cond) (sf : Bool) (rn rd : Reg) (o : RotImm) (s : State) : Result :=
  conditional c none s (dataProcess .rsc sf (readReg s rn) rd (immForm s o) s)

/-- RSC, register shifted by an immediate (R215, R203). -/
def execRscShImm (c : Cond) (sf : Bool) (rn rd : Reg) (o : ShImm) (s : State) : Result :=
  conditional c none s (dataProcess .rsc sf (readReg s rn) rd (shImmForm s o) s)

/-- RSC, register shifted by a register (R215, R204). -/
def execRscShReg (c : Cond) (sf : Bool) (rn rd : Reg) (o : ShReg) (s : State) : Result :=
  conditional c (pcRule [rn, rd, o.rs, o.rm]) s (dataProcess .rsc sf (readReg s rn) rd (shRegForm s o) s)

/-- TST, immediate operand (R216, R202). -/
def execTstImm (c : Cond) (rn : Reg) (o : RotImm) (s : State) : Result :=
  conditional c none s (compare .tst (readReg s rn) (immForm s o) s)

/-- TST, register shifted by an immediate (R216, R203). -/
def execTstShImm (c : Cond) (rn : Reg) (o : ShImm) (s : State) : Result :=
  conditional c none s (compare .tst (readReg s rn) (shImmForm s o) s)

/-- TST, register shifted by a register (R216, R204). -/
def execTstShReg (c : Cond) (rn : Reg) (o : ShReg) (s : State) : Result :=
  conditional c (pcRule [rn, o.rs, o.rm]) s (compare .tst (readReg s rn) (shRegForm s o) s)

/-- TEQ, immediate operand (R217, R202). -/
def execTeqImm (c : Cond) (rn : Reg) (o : RotImm) (s : State) : Result :=
  conditional c none s (compare .teq (readReg s rn) (immForm s o) s)

/-- TEQ, register shifted by an immediate (R217, R203). -/
def execTeqShImm (c : Cond) (rn : Reg) (o : ShImm) (s : State) : Result :=
  conditional c none s (compare .teq (readReg s rn) (shImmForm s o) s)

/-- TEQ, register shifted by a register (R217, R204). -/
def execTeqShReg (c : Cond) (rn : Reg) (o : ShReg) (s : State) : Result :=
  conditional c (pcRule [rn, o.rs, o.rm]) s (compare .teq (readReg s rn) (shRegForm s o) s)

/-- CMP, immediate operand (R218, R202). -/
def execCmpImm (c : Cond) (rn : Reg) (o : RotImm) (s : State) : Result :=
  conditional c none s (compare .cmp (readReg s rn) (immForm s o) s)

/-- CMP, register shifted by an immediate (R218, R203). -/
def execCmpShImm (c : Cond) (rn : Reg) (o : ShImm) (s : State) : Result :=
  conditional c none s (compare .cmp (readReg s rn) (shImmForm s o) s)

/-- CMP, register shifted by a register (R218, R204). -/
def execCmpShReg (c : Cond) (rn : Reg) (o : ShReg) (s : State) : Result :=
  conditional c (pcRule [rn, o.rs, o.rm]) s (compare .cmp (readReg s rn) (shRegForm s o) s)

/-- CMN, immediate operand (R219, R202). -/
def execCmnImm (c : Cond) (rn : Reg) (o : RotImm) (s : State) : Result :=
  conditional c none s (compare .cmn (readReg s rn) (immForm s o) s)

/-- CMN, register shifted by an immediate (R219, R203). -/
def execCmnShImm (c : Cond) (rn : Reg) (o : ShImm) (s : State) : Result :=
  conditional c none s (compare .cmn (readReg s rn) (shImmForm s o) s)

/-- CMN, register shifted by a register (R219, R204). -/
def execCmnShReg (c : Cond) (rn : Reg) (o : ShReg) (s : State) : Result :=
  conditional c (pcRule [rn, o.rs, o.rm]) s (compare .cmn (readReg s rn) (shRegForm s o) s)

/-- ORR, immediate operand (R220, R202). -/
def execOrrImm (c : Cond) (sf : Bool) (rn rd : Reg) (o : RotImm) (s : State) : Result :=
  conditional c none s (dataProcess .orr sf (readReg s rn) rd (immForm s o) s)

/-- ORR, register shifted by an immediate (R220, R203). -/
def execOrrShImm (c : Cond) (sf : Bool) (rn rd : Reg) (o : ShImm) (s : State) : Result :=
  conditional c none s (dataProcess .orr sf (readReg s rn) rd (shImmForm s o) s)

/-- ORR, register shifted by a register (R220, R204). -/
def execOrrShReg (c : Cond) (sf : Bool) (rn rd : Reg) (o : ShReg) (s : State) : Result :=
  conditional c (pcRule [rn, rd, o.rs, o.rm]) s (dataProcess .orr sf (readReg s rn) rd (shRegForm s o) s)

/-- MOV, immediate operand (R221, R202). -/
def execMovImm (c : Cond) (sf : Bool) (rd : Reg) (o : RotImm) (s : State) : Result :=
  conditional c none s (dataProcess .mov sf 0 rd (immForm s o) s)

/-- MOV, register shifted by an immediate (R221, R203). -/
def execMovShImm (c : Cond) (sf : Bool) (rd : Reg) (o : ShImm) (s : State) : Result :=
  conditional c none s (dataProcess .mov sf 0 rd (shImmForm s o) s)

/-- MOV, register shifted by a register (R221, R204). -/
def execMovShReg (c : Cond) (sf : Bool) (rd : Reg) (o : ShReg) (s : State) : Result :=
  conditional c (pcRule [rd, o.rs, o.rm]) s (dataProcess .mov sf 0 rd (shRegForm s o) s)

/-- BIC, immediate operand (R222, R202). -/
def execBicImm (c : Cond) (sf : Bool) (rn rd : Reg) (o : RotImm) (s : State) : Result :=
  conditional c none s (dataProcess .bic sf (readReg s rn) rd (immForm s o) s)

/-- BIC, register shifted by an immediate (R222, R203). -/
def execBicShImm (c : Cond) (sf : Bool) (rn rd : Reg) (o : ShImm) (s : State) : Result :=
  conditional c none s (dataProcess .bic sf (readReg s rn) rd (shImmForm s o) s)

/-- BIC, register shifted by a register (R222, R204). -/
def execBicShReg (c : Cond) (sf : Bool) (rn rd : Reg) (o : ShReg) (s : State) : Result :=
  conditional c (pcRule [rn, rd, o.rs, o.rm]) s (dataProcess .bic sf (readReg s rn) rd (shRegForm s o) s)

/-- MVN, immediate operand (R223, R202). -/
def execMvnImm (c : Cond) (sf : Bool) (rd : Reg) (o : RotImm) (s : State) : Result :=
  conditional c none s (dataProcess .mvn sf 0 rd (immForm s o) s)

/-- MVN, register shifted by an immediate (R223, R203). -/
def execMvnShImm (c : Cond) (sf : Bool) (rd : Reg) (o : ShImm) (s : State) : Result :=
  conditional c none s (dataProcess .mvn sf 0 rd (shImmForm s o) s)

/-- MVN, register shifted by a register (R223, R204). -/
def execMvnShReg (c : Cond) (sf : Bool) (rd : Reg) (o : ShReg) (s : State) : Result :=
  conditional c (pcRule [rd, o.rs, o.rm]) s (dataProcess .mvn sf 0 rd (shRegForm s o) s)

end Sys2Proof.Machine
end

