-- ==== Sys2Proof/Machine/ArmLoadStore.lean ====
section
/-! DEFINITION. ARM single loads and stores: words and bytes, the T variants, halfwords and signed (spec/44_arm_load_store.md R266 to R290). -/

namespace Sys2Proof.Machine

/-- A register offset: Rm shifted by an immediate, RRX with the current C; the carry-out is discarded (R266). -/
def shiftedOffset (s : State) (o : ShImm) : Word := (shiftImm o.type (readReg s o.rm) o.amount s.cpsr.c).value

/-- STRH, register offset (R282, R280). -/
def execStrhReg (c : Cond) (p u w : Bool) (rn rd rm : Reg) (s : State) : Result :=
  conditional c (halfRegRule p w rn rd rm) s
    (storeSingle .half s.cpsr.mode.privileged rn rd (address p u w (readReg s rn) (readReg s rm)) s)

/-- STRH, immediate offset (R282, R280). -/
def execStrhImm (c : Cond) (p u w : Bool) (rn rd : Reg) (imm : BitVec 8) (s : State) : Result :=
  conditional c (halfImmRule p w rn rd) s
    (storeSingle .half s.cpsr.mode.privileged rn rd (address p u w (readReg s rn) (imm.setWidth 32)) s)

/-- LDRH, register offset (R281, R280). -/
def execLdrhReg (c : Cond) (p u w : Bool) (rn rd rm : Reg) (s : State) : Result :=
  conditional c (halfRegRule p w rn rd rm) s
    (loadSingle .half s.cpsr.mode.privileged rn rd (address p u w (readReg s rn) (readReg s rm)) s)

/-- LDRH, immediate offset (R281, R280). -/
def execLdrhImm (c : Cond) (p u w : Bool) (rn rd : Reg) (imm : BitVec 8) (s : State) : Result :=
  conditional c (halfImmRule p w rn rd) s
    (loadSingle .half s.cpsr.mode.privileged rn rd (address p u w (readReg s rn) (imm.setWidth 32)) s)

/-- LDRSB, register offset (R283, R280). -/
def execLdrsbReg (c : Cond) (p u w : Bool) (rn rd rm : Reg) (s : State) : Result :=
  conditional c (halfRegRule p w rn rd rm) s
    (loadSingle .signedByte s.cpsr.mode.privileged rn rd (address p u w (readReg s rn) (readReg s rm)) s)

/-- LDRSB, immediate offset (R283, R280). -/
def execLdrsbImm (c : Cond) (p u w : Bool) (rn rd : Reg) (imm : BitVec 8) (s : State) : Result :=
  conditional c (halfImmRule p w rn rd) s
    (loadSingle .signedByte s.cpsr.mode.privileged rn rd (address p u w (readReg s rn) (imm.setWidth 32)) s)

/-- LDRSH, register offset (R284, R280). -/
def execLdrshReg (c : Cond) (p u w : Bool) (rn rd rm : Reg) (s : State) : Result :=
  conditional c (halfRegRule p w rn rd rm) s
    (loadSingle .signedHalf s.cpsr.mode.privileged rn rd (address p u w (readReg s rn) (readReg s rm)) s)

/-- LDRSH, immediate offset (R284, R280). -/
def execLdrshImm (c : Cond) (p u w : Bool) (rn rd : Reg) (imm : BitVec 8) (s : State) : Result :=
  conditional c (halfImmRule p w rn rd) s
    (loadSingle .signedHalf s.cpsr.mode.privileged rn rd (address p u w (readReg s rn) (imm.setWidth 32)) s)

/-- STR, immediate offset, pre-indexed (R268, R266). -/
def execStrImmPre (c : Cond) (u w : Bool) (rn rd : Reg) (imm : BitVec 12) (s : State) : Result :=
  conditional c (singleImmRule true w rn rd) s
    (storeSingle .word s.cpsr.mode.privileged rn rd (address true u w (readReg s rn) (imm.setWidth 32)) s)

/-- STR, immediate offset, post-indexed (R268, R266). -/
def execStrImmPost (c : Cond) (u : Bool) (rn rd : Reg) (imm : BitVec 12) (s : State) : Result :=
  conditional c (singleImmRule true true rn rd) s
    (storeSingle .word s.cpsr.mode.privileged rn rd (address false u true (readReg s rn) (imm.setWidth 32)) s)

/-- STRT, immediate offset, post-indexed, User privilege (R276, R277). -/
def execStrtImm (c : Cond) (u : Bool) (rn rd : Reg) (imm : BitVec 12) (s : State) : Result :=
  conditional c (singleImmRule false true rn rd) s
    (storeSingle .word false rn rd (address false u true (readReg s rn) (imm.setWidth 32)) s)

/-- STR, register offset, pre-indexed (R268, R266). -/
def execStrRegPre (c : Cond) (u w : Bool) (rn rd : Reg) (o : ShImm) (s : State) : Result :=
  conditional c (singleRegRule true false w rn rd o.rm) s
    (storeSingle .word s.cpsr.mode.privileged rn rd (address true u w (readReg s rn) (shiftedOffset s o)) s)

/-- STR, register offset, post-indexed (R268, R266). -/
def execStrRegPost (c : Cond) (u : Bool) (rn rd : Reg) (o : ShImm) (s : State) : Result :=
  conditional c (singleRegRule true true true rn rd o.rm) s
    (storeSingle .word s.cpsr.mode.privileged rn rd (address false u true (readReg s rn) (shiftedOffset s o)) s)

/-- STRT, register offset, post-indexed, User privilege (R276, R277). -/
def execStrtReg (c : Cond) (u : Bool) (rn rd : Reg) (o : ShImm) (s : State) : Result :=
  conditional c (singleRegRule false true true rn rd o.rm) s
    (storeSingle .word false rn rd (address false u true (readReg s rn) (shiftedOffset s o)) s)

/-- LDR, immediate offset, pre-indexed (R267, R266). -/
def execLdrImmPre (c : Cond) (u w : Bool) (rn rd : Reg) (imm : BitVec 12) (s : State) : Result :=
  conditional c (singleImmRule true w rn rd) s
    (loadSingle .word s.cpsr.mode.privileged rn rd (address true u w (readReg s rn) (imm.setWidth 32)) s)

/-- LDR, immediate offset, post-indexed (R267, R266). -/
def execLdrImmPost (c : Cond) (u : Bool) (rn rd : Reg) (imm : BitVec 12) (s : State) : Result :=
  conditional c (singleImmRule true true rn rd) s
    (loadSingle .word s.cpsr.mode.privileged rn rd (address false u true (readReg s rn) (imm.setWidth 32)) s)

/-- LDRT, immediate offset, post-indexed, User privilege (R275, R277). -/
def execLdrtImm (c : Cond) (u : Bool) (rn rd : Reg) (imm : BitVec 12) (s : State) : Result :=
  conditional c (singleImmRule false true rn rd) s
    (loadSingle .word false rn rd (address false u true (readReg s rn) (imm.setWidth 32)) s)

/-- LDR, register offset, pre-indexed (R267, R266). -/
def execLdrRegPre (c : Cond) (u w : Bool) (rn rd : Reg) (o : ShImm) (s : State) : Result :=
  conditional c (singleRegRule true false w rn rd o.rm) s
    (loadSingle .word s.cpsr.mode.privileged rn rd (address true u w (readReg s rn) (shiftedOffset s o)) s)

/-- LDR, register offset, post-indexed (R267, R266). -/
def execLdrRegPost (c : Cond) (u : Bool) (rn rd : Reg) (o : ShImm) (s : State) : Result :=
  conditional c (singleRegRule true true true rn rd o.rm) s
    (loadSingle .word s.cpsr.mode.privileged rn rd (address false u true (readReg s rn) (shiftedOffset s o)) s)

/-- LDRT, register offset, post-indexed, User privilege (R275, R277). -/
def execLdrtReg (c : Cond) (u : Bool) (rn rd : Reg) (o : ShImm) (s : State) : Result :=
  conditional c (singleRegRule false true true rn rd o.rm) s
    (loadSingle .word false rn rd (address false u true (readReg s rn) (shiftedOffset s o)) s)

/-- STRB, immediate offset, pre-indexed (R272, R266). -/
def execStrbImmPre (c : Cond) (u w : Bool) (rn rd : Reg) (imm : BitVec 12) (s : State) : Result :=
  conditional c (singleImmRule false w rn rd) s
    (storeSingle .byte s.cpsr.mode.privileged rn rd (address true u w (readReg s rn) (imm.setWidth 32)) s)

/-- STRB, immediate offset, post-indexed (R272, R266). -/
def execStrbImmPost (c : Cond) (u : Bool) (rn rd : Reg) (imm : BitVec 12) (s : State) : Result :=
  conditional c (singleImmRule false true rn rd) s
    (storeSingle .byte s.cpsr.mode.privileged rn rd (address false u true (readReg s rn) (imm.setWidth 32)) s)

/-- STRBT, immediate offset, post-indexed, User privilege (R279, R277). -/
def execStrbtImm (c : Cond) (u : Bool) (rn rd : Reg) (imm : BitVec 12) (s : State) : Result :=
  conditional c (singleImmRule false true rn rd) s
    (storeSingle .byte false rn rd (address false u true (readReg s rn) (imm.setWidth 32)) s)

/-- STRB, register offset, pre-indexed (R272, R266). -/
def execStrbRegPre (c : Cond) (u w : Bool) (rn rd : Reg) (o : ShImm) (s : State) : Result :=
  conditional c (singleRegRule false false w rn rd o.rm) s
    (storeSingle .byte s.cpsr.mode.privileged rn rd (address true u w (readReg s rn) (shiftedOffset s o)) s)

/-- STRB, register offset, post-indexed (R272, R266). -/
def execStrbRegPost (c : Cond) (u : Bool) (rn rd : Reg) (o : ShImm) (s : State) : Result :=
  conditional c (singleRegRule false true true rn rd o.rm) s
    (storeSingle .byte s.cpsr.mode.privileged rn rd (address false u true (readReg s rn) (shiftedOffset s o)) s)

/-- STRBT, register offset, post-indexed, User privilege (R279, R277). -/
def execStrbtReg (c : Cond) (u : Bool) (rn rd : Reg) (o : ShImm) (s : State) : Result :=
  conditional c (singleRegRule false true true rn rd o.rm) s
    (storeSingle .byte false rn rd (address false u true (readReg s rn) (shiftedOffset s o)) s)

/-- LDRB, immediate offset, pre-indexed (R269, R266). -/
def execLdrbImmPre (c : Cond) (u w : Bool) (rn rd : Reg) (imm : BitVec 12) (s : State) : Result :=
  conditional c (singleImmRule false w rn rd) s
    (loadSingle .byte s.cpsr.mode.privileged rn rd (address true u w (readReg s rn) (imm.setWidth 32)) s)

/-- LDRB, immediate offset, post-indexed (R269, R266). -/
def execLdrbImmPost (c : Cond) (u : Bool) (rn rd : Reg) (imm : BitVec 12) (s : State) : Result :=
  conditional c (singleImmRule false true rn rd) s
    (loadSingle .byte s.cpsr.mode.privileged rn rd (address false u true (readReg s rn) (imm.setWidth 32)) s)

/-- LDRBT, immediate offset, post-indexed, User privilege (R278, R277). -/
def execLdrbtImm (c : Cond) (u : Bool) (rn rd : Reg) (imm : BitVec 12) (s : State) : Result :=
  conditional c (singleImmRule false true rn rd) s
    (loadSingle .byte false rn rd (address false u true (readReg s rn) (imm.setWidth 32)) s)

/-- LDRB, register offset, pre-indexed (R269, R266). -/
def execLdrbRegPre (c : Cond) (u w : Bool) (rn rd : Reg) (o : ShImm) (s : State) : Result :=
  conditional c (singleRegRule false false w rn rd o.rm) s
    (loadSingle .byte s.cpsr.mode.privileged rn rd (address true u w (readReg s rn) (shiftedOffset s o)) s)

/-- LDRB, register offset, post-indexed (R269, R266). -/
def execLdrbRegPost (c : Cond) (u : Bool) (rn rd : Reg) (o : ShImm) (s : State) : Result :=
  conditional c (singleRegRule false true true rn rd o.rm) s
    (loadSingle .byte s.cpsr.mode.privileged rn rd (address false u true (readReg s rn) (shiftedOffset s o)) s)

/-- LDRBT, register offset, post-indexed, User privilege (R278, R277). -/
def execLdrbtReg (c : Cond) (u : Bool) (rn rd : Reg) (o : ShImm) (s : State) : Result :=
  conditional c (singleRegRule false true true rn rd o.rm) s
    (loadSingle .byte false rn rd (address false u true (readReg s rn) (shiftedOffset s o)) s)

end Sys2Proof.Machine
end

