-- ==== Sys2Proof/Machine/ArmMul.lean ====
section
/-! DEFINITION. ARM multiplies (spec/43_arm_multiply.md R251 to R260). -/

namespace Sys2Proof.Machine

/-- A 32-bit multiply's result to Rd; with S = 1, N and Z from it, C a free bit, V unchanged (R251, R252; log entry 9). -/
def finishMul (sf : Bool) (rd : Reg) (v : Word) (s : State) : Result :=
  let s1 := writeReg s rd v
  if sf then
    let d := drawBit s1
    advance { d.2 with cpsr := { setNZ v s.cpsr with c := d.1 } }
  else advance s1

/-- A 64-bit multiply's result to RdHi and RdLo; with S = 1, N and Z from all 64 bits, C and V free bits (R253 to R256; log
entry 9). -/
def finishMulLong (sf : Bool) (hi lo : Reg) (v : BitVec 64) (s : State) : Result :=
  let s1 := writeReg (writeReg s lo (v.extractLsb' 0 32)) hi (v.extractLsb' 32 32)
  if sf then
    let d := drawBit s1
    let e := drawBit d.2
    advance { e.2 with cpsr := { setNZ64 v s.cpsr with c := d.1, v := e.1 } }
  else advance s1

/-- The exact unsigned product in 64 bits (R253). -/
def umulProduct (a b : Word) : BitVec 64 := BitVec.ofNat 64 (a.toNat * b.toNat)

/-- The exact signed product in 64 bits (R255). -/
def smulProduct (a b : Word) : BitVec 64 := BitVec.ofInt 64 (a.toInt * b.toInt)

/-- The accumulator RdHi : RdLo (R254). -/
def accumulator (s : State) (hi lo : Reg) : BitVec 64 := readReg s hi ++ readReg s lo

/-- MUL (R251). -/
def execMul (c : Cond) (sf : Bool) (rd rs rm : Reg) (s : State) : Result :=
  conditional c (mulRule rd rm [rs]) s (finishMul sf rd (readReg s rm * readReg s rs) s)

/-- MLA (R252). -/
def execMla (c : Cond) (sf : Bool) (rd rn rs rm : Reg) (s : State) : Result :=
  conditional c (mulRule rd rm [rs, rn]) s (finishMul sf rd (readReg s rm * readReg s rs + readReg s rn) s)

/-- UMULL (R253). -/
def execUmull (c : Cond) (sf : Bool) (hi lo rs rm : Reg) (s : State) : Result :=
  conditional c (mulLongRule hi lo rs rm) s (finishMulLong sf hi lo (umulProduct (readReg s rm) (readReg s rs)) s)

/-- UMLAL (R254). -/
def execUmlal (c : Cond) (sf : Bool) (hi lo rs rm : Reg) (s : State) : Result :=
  conditional c (mulLongRule hi lo rs rm) s
    (finishMulLong sf hi lo (umulProduct (readReg s rm) (readReg s rs) + accumulator s hi lo) s)

/-- SMULL (R255). -/
def execSmull (c : Cond) (sf : Bool) (hi lo rs rm : Reg) (s : State) : Result :=
  conditional c (mulLongRule hi lo rs rm) s (finishMulLong sf hi lo (smulProduct (readReg s rm) (readReg s rs)) s)

/-- SMLAL (R256). -/
def execSmlal (c : Cond) (sf : Bool) (hi lo rs rm : Reg) (s : State) : Result :=
  conditional c (mulLongRule hi lo rs rm) s
    (finishMulLong sf hi lo (smulProduct (readReg s rm) (readReg s rs) + accumulator s hi lo) s)

end Sys2Proof.Machine
end

