-- ==== Sys2Proof/Machine/ArmPsr.lean ====
section
/-! DEFINITION. ARM MRS and MSR (spec/42_arm_psr_transfer.md R240 to R245). -/

namespace Sys2Proof.Machine

/-- MRS: all 32 bits of the CPSR, or of the SPSR of a mode that has one (R241). -/
def readPsr (spsr : Bool) (rd : Reg) (s : State) : Result :=
  if spsr then
    match s.spsrs.get s.cpsr.mode with
    | none => .refused .noSpsr
    | some w => advance (writeReg s rd w)
  else advance (writeReg s rd s.cpsr.toWord)

/-- Which CPSR bytes an MSR may write: in User mode only the flags byte (R244). -/
def msrMask (m : Mode) (mask : BitVec 4) : BitVec 4 := if m.privileged then mask else mask &&& 0b1000#4

/-- MSR to the CPSR: T must not change and the mode must be legal (R244, R245). -/
def writeCpsr (mask : BitVec 4) (v : Word) (s : State) : Result :=
  let w := mergeBytes (msrMask s.cpsr.mode mask) s.cpsr.toWord v
  if w.getLsbD 5 != s.cpsr.t then .refused .changesT
  else
    match Psr.ofWord w with
    | none => .refused .illegalMode
    | some p => advance { s with cpsr := p }

/-- MSR to the SPSR of a mode that has one: any bits (R244, R245). -/
def writeSpsr (mask : BitVec 4) (v : Word) (s : State) : Result :=
  match s.spsrs.get s.cpsr.mode with
  | none => .refused .noSpsr
  | some w => advance { s with spsrs := s.spsrs.set s.cpsr.mode (mergeBytes mask w v) }

/-- MSR of an operand (R244). -/
def writePsr (spsr : Bool) (mask : BitVec 4) (v : Word) (s : State) : Result :=
  if spsr then writeSpsr mask v s else writeCpsr mask v s

/-- MRS (R241). -/
def execMrs (c : Cond) (spsr : Bool) (rd : Reg) (s : State) : Result :=
  conditional c (pcRule [rd]) s (readPsr spsr rd s)

/-- MSR of a register (R242). -/
def execMsrReg (c : Cond) (spsr : Bool) (mask : BitVec 4) (rm : Reg) (s : State) : Result :=
  conditional c (pcRule [rm]) s (writePsr spsr mask (readReg s rm) s)

/-- MSR of an immediate (R243). -/
def execMsrImm (c : Cond) (spsr : Bool) (mask : BitVec 4) (o : RotImm) (s : State) : Result :=
  conditional c none s (writePsr spsr mask (rotValue o) s)

end Sys2Proof.Machine
end

