-- ==== Sys2Proof/Machine/ArmSystem.lean ====
section
/-! DEFINITION. ARM SWI, the coprocessor instructions and the undefined instruction (spec/46_arm_swi_coproc_undef.md R321 to R331). -/

namespace Sys2Proof.Machine

/-- The undefined instruction (R330). -/
def execUndef (c : Cond) (_hi : BitVec 20) (_lo : BitVec 4) (s : State) : Result :=
  conditional c none s (.next (takeTrap .undefined s))

/-- STC: no coprocessor takes it, so the Undefined Instruction trap (R331, R324). -/
def execStc (c : Cond) (_p _u _n _w : Bool) (_rn : Reg) (_crd cp : BitVec 4) (_imm : BitVec 8) (s : State) : Result :=
  conditional c (coprocRule cp) s (.next (takeTrap .undefined s))

/-- LDC: no coprocessor takes it, so the Undefined Instruction trap (R328, R324). -/
def execLdc (c : Cond) (_p _u _n _w : Bool) (_rn : Reg) (_crd cp : BitVec 4) (_imm : BitVec 8) (s : State) : Result :=
  conditional c (coprocRule cp) s (.next (takeTrap .undefined s))

/-- CDP: no coprocessor takes it, so the Undefined Instruction trap (R325, R324). -/
def execCdp (c : Cond) (_opc1 _crn _crd cp : BitVec 4) (_opc2 : BitVec 3) (_crm : BitVec 4) (s : State) : Result :=
  conditional c (coprocRule cp) s (.next (takeTrap .undefined s))

/-- MCR: no coprocessor takes it, so the Undefined Instruction trap (R327, R324). -/
def execMcr (c : Cond) (_opc1 : BitVec 3) (_crn : BitVec 4) (_rd : Reg) (cp : BitVec 4) (_opc2 : BitVec 3) (_crm : BitVec 4) (s : State) : Result :=
  conditional c (coprocRule cp) s (.next (takeTrap .undefined s))

/-- MRC: no coprocessor takes it, so the Undefined Instruction trap (R326, R324). -/
def execMrc (c : Cond) (_opc1 : BitVec 3) (_crn : BitVec 4) (_rd : Reg) (cp : BitVec 4) (_opc2 : BitVec 3) (_crm : BitVec 4) (s : State) : Result :=
  conditional c (coprocRule cp) s (.next (takeTrap .undefined s))

/-- SWI (R321). -/
def execSwi (c : Cond) (_imm : BitVec 24) (s : State) : Result :=
  conditional c none s (.next (takeTrap .swi s))

end Sys2Proof.Machine
end

