-- ==== Sys2Proof/Machine/ThumbAlu.lean ====
section
/-! DEFINITION. Thumb formats 1 to 5 (spec/47_thumb_alu.md R341 to R379). -/

namespace Sys2Proof.Machine

/-- An operand that is not shifted: C stays for a logical operation (R383). -/
def plain (v : Word) (s : State) : Shifted := { value := v, carry := s.cpsr.c }

/-- An operation of formats 1 to 4 that writes Rd and always sets the flags (R383). -/
def thumbAlu (op : AluOp) (rd : Reg) (a : Word) (o : Shifted) (s : State) : Result :=
  let r := alu op a o s.cpsr
  advance { writeReg s rd r.result with cpsr := flagsOf r s.cpsr }

/-- An operation of which only the flags stay (R383). -/
def thumbCompare (op : AluOp) (a : Word) (o : Shifted) (s : State) : Result :=
  advance { s with cpsr := flagsOf (alu op a o s.cpsr) s.cpsr }

/-- The destination of a format 5 ADD or MOV: R15 is a branch that stays in Thumb state, bit 0 ignored (R376, R378). -/
def writeHigh (rd : Reg) (v : Word) (s : State) : Result :=
  if rd = 15 then .next (branchTo (halfMask v) s) else advance (writeReg s rd v)

/-- LSL Rd, Rs, #imm5 (R341). -/
def execTLslImm (imm : BitVec 5) (rs rd : LoReg) (s : State) : Result :=
  thumbAlu .mov (lo rd) 0 (shiftImm .lsl (readReg s (lo rs)) imm s.cpsr.c) s

/-- LSR Rd, Rs, #imm5 (R342). -/
def execTLsrImm (imm : BitVec 5) (rs rd : LoReg) (s : State) : Result :=
  thumbAlu .mov (lo rd) 0 (shiftImm .lsr (readReg s (lo rs)) imm s.cpsr.c) s

/-- ASR Rd, Rs, #imm5 (R343). -/
def execTAsrImm (imm : BitVec 5) (rs rd : LoReg) (s : State) : Result :=
  thumbAlu .mov (lo rd) 0 (shiftImm .asr (readReg s (lo rs)) imm s.cpsr.c) s

/-- ADD Rd, Rs, Rn (R344). -/
def execTAddReg (rn rs rd : LoReg) (s : State) : Result :=
  thumbAlu .add (lo rd) (readReg s (lo rs)) (plain (readReg s (lo rn)) s) s

/-- SUB Rd, Rs, Rn (R345). -/
def execTSubReg (rn rs rd : LoReg) (s : State) : Result :=
  thumbAlu .sub (lo rd) (readReg s (lo rs)) (plain (readReg s (lo rn)) s) s

/-- ADD Rd, Rs, #imm3 (R346). -/
def execTAddImm3 (imm : BitVec 3) (rs rd : LoReg) (s : State) : Result :=
  thumbAlu .add (lo rd) (readReg s (lo rs)) (plain (imm.setWidth 32) s) s

/-- SUB Rd, Rs, #imm3 (R347). -/
def execTSubImm3 (imm : BitVec 3) (rs rd : LoReg) (s : State) : Result :=
  thumbAlu .sub (lo rd) (readReg s (lo rs)) (plain (imm.setWidth 32) s) s

/-- MOV Rd, #imm8 (R348). -/
def execTMovImm (rd : LoReg) (imm : BitVec 8) (s : State) : Result :=
  thumbAlu .mov (lo rd) 0 (plain (imm.setWidth 32) s) s

/-- CMP Rd, #imm8 (R349). -/
def execTCmpImm (rd : LoReg) (imm : BitVec 8) (s : State) : Result :=
  thumbCompare .cmp (readReg s (lo rd)) (plain (imm.setWidth 32) s) s

/-- ADD Rd, #imm8 (R350). -/
def execTAddImm8 (rd : LoReg) (imm : BitVec 8) (s : State) : Result :=
  thumbAlu .add (lo rd) (readReg s (lo rd)) (plain (imm.setWidth 32) s) s

/-- SUB Rd, #imm8 (R351). -/
def execTSubImm8 (rd : LoReg) (imm : BitVec 8) (s : State) : Result :=
  thumbAlu .sub (lo rd) (readReg s (lo rd)) (plain (imm.setWidth 32) s) s

/-- AND Rd, Rs (R352). -/
def execTAnd (rs rd : LoReg) (s : State) : Result :=
  thumbAlu .and (lo rd) (readReg s (lo rd)) (plain (readReg s (lo rs)) s) s

/-- EOR Rd, Rs (R353). -/
def execTEor (rs rd : LoReg) (s : State) : Result :=
  thumbAlu .eor (lo rd) (readReg s (lo rd)) (plain (readReg s (lo rs)) s) s

/-- LSL Rd, Rs (R354). -/
def execTLslReg (rs rd : LoReg) (s : State) : Result :=
  thumbAlu .mov (lo rd) 0 (shiftReg .lsl (readReg s (lo rd)) ((readReg s (lo rs)).setWidth 8) s.cpsr.c) s

/-- LSR Rd, Rs (R355). -/
def execTLsrReg (rs rd : LoReg) (s : State) : Result :=
  thumbAlu .mov (lo rd) 0 (shiftReg .lsr (readReg s (lo rd)) ((readReg s (lo rs)).setWidth 8) s.cpsr.c) s

/-- ASR Rd, Rs (R356). -/
def execTAsrReg (rs rd : LoReg) (s : State) : Result :=
  thumbAlu .mov (lo rd) 0 (shiftReg .asr (readReg s (lo rd)) ((readReg s (lo rs)).setWidth 8) s.cpsr.c) s

/-- ADC Rd, Rs (R357). -/
def execTAdc (rs rd : LoReg) (s : State) : Result :=
  thumbAlu .adc (lo rd) (readReg s (lo rd)) (plain (readReg s (lo rs)) s) s

/-- SBC Rd, Rs (R358). -/
def execTSbc (rs rd : LoReg) (s : State) : Result :=
  thumbAlu .sbc (lo rd) (readReg s (lo rd)) (plain (readReg s (lo rs)) s) s

/-- ROR Rd, Rs (R359). -/
def execTRorReg (rs rd : LoReg) (s : State) : Result :=
  thumbAlu .mov (lo rd) 0 (shiftReg .ror (readReg s (lo rd)) ((readReg s (lo rs)).setWidth 8) s.cpsr.c) s

/-- TST Rd, Rs (R360). -/
def execTTst (rs rd : LoReg) (s : State) : Result :=
  thumbCompare .tst (readReg s (lo rd)) (plain (readReg s (lo rs)) s) s

/-- NEG Rd, Rs: 0 - Rs (R361). -/
def execTNeg (rs rd : LoReg) (s : State) : Result :=
  thumbAlu .rsb (lo rd) (readReg s (lo rs)) (plain 0 s) s

/-- CMP Rd, Rs (R362). -/
def execTCmpReg (rs rd : LoReg) (s : State) : Result :=
  thumbCompare .cmp (readReg s (lo rd)) (plain (readReg s (lo rs)) s) s

/-- CMN Rd, Rs (R363). -/
def execTCmn (rs rd : LoReg) (s : State) : Result :=
  thumbCompare .cmn (readReg s (lo rd)) (plain (readReg s (lo rs)) s) s

/-- ORR Rd, Rs (R364). -/
def execTOrr (rs rd : LoReg) (s : State) : Result :=
  thumbAlu .orr (lo rd) (readReg s (lo rd)) (plain (readReg s (lo rs)) s) s

/-- MUL Rd, Rs: C a free bit (R365; log entry 9). -/
def execTMul (rs rd : LoReg) (s : State) : Result :=
  checked (thumbMulRule rs rd) (finishMul true (lo rd) (readReg s (lo rd) * readReg s (lo rs)) s)

/-- BIC Rd, Rs (R366). -/
def execTBic (rs rd : LoReg) (s : State) : Result :=
  thumbAlu .bic (lo rd) (readReg s (lo rd)) (plain (readReg s (lo rs)) s) s

/-- MVN Rd, Rs (R367). -/
def execTMvn (rs rd : LoReg) (s : State) : Result :=
  thumbAlu .mvn (lo rd) 0 (plain (readReg s (lo rs)) s) s

/-- ADD Hd, Rs: Hd = R15 is a branch (R376). -/
def execTAddHd (hd : LoReg) (rs : Reg) (s : State) : Result :=
  writeHigh (hi hd) (readReg s (hi hd) + readReg s rs) s

/-- ADD Rd, Hs (R376). -/
def execTAddHs (rd hs : LoReg) (s : State) : Result :=
  writeHigh (lo rd) (readReg s (lo rd) + readReg s (hi hs)) s

/-- CMP Hd, Rs: Hd is not R15 (R377). -/
def execTCmpHd (hd : LoReg) (rs : Reg) (s : State) : Result :=
  checked (pcRule [hi hd]) (thumbCompare .cmp (readReg s (hi hd)) (plain (readReg s rs) s) s)

/-- CMP Rd, Hs (R377). -/
def execTCmpHs (rd hs : LoReg) (s : State) : Result :=
  thumbCompare .cmp (readReg s (lo rd)) (plain (readReg s (hi hs)) s) s

/-- MOV Hd, Rs: Hd = R15 is a branch (R378). -/
def execTMovHd (hd : LoReg) (rs : Reg) (s : State) : Result :=
  writeHigh (hi hd) (readReg s rs) s

/-- MOV Rd, Hs (R378). -/
def execTMovHs (rd hs : LoReg) (s : State) : Result :=
  writeHigh (lo rd) (readReg s (hi hs)) s

/-- BX Rs (R379). -/
def execTBx (rs : Reg) (s : State) : Result :=
  branchExchange (readReg s rs) s

end Sys2Proof.Machine
end

