-- ==== Sys2Proof/Machine/ThumbBranch.lean ====
section
/-! DEFINITION. Thumb formats 16 to 19 (spec/49_thumb_branch.md R441 to R447). -/

namespace Sys2Proof.Machine

/-- A conditional branch, the target counted from pc + 4 (R441). -/
def branchIf (c : Cond) (off : BitVec 8) (s : State) : Result :=
  if condPassed c s.cpsr then .next (branchTo (s.pc + 4 + branchOffset off 1) s) else advance s

/-- BEQ (R441). -/
def execTBeq (off : BitVec 8) (s : State) : Result :=
  branchIf .eq off s

/-- BNE (R441). -/
def execTBne (off : BitVec 8) (s : State) : Result :=
  branchIf .ne off s

/-- BCS (R441). -/
def execTBcs (off : BitVec 8) (s : State) : Result :=
  branchIf .cs off s

/-- BCC (R441). -/
def execTBcc (off : BitVec 8) (s : State) : Result :=
  branchIf .cc off s

/-- BMI (R441). -/
def execTBmi (off : BitVec 8) (s : State) : Result :=
  branchIf .mi off s

/-- BPL (R441). -/
def execTBpl (off : BitVec 8) (s : State) : Result :=
  branchIf .pl off s

/-- BVS (R441). -/
def execTBvs (off : BitVec 8) (s : State) : Result :=
  branchIf .vs off s

/-- BVC (R441). -/
def execTBvc (off : BitVec 8) (s : State) : Result :=
  branchIf .vc off s

/-- BHI (R441). -/
def execTBhi (off : BitVec 8) (s : State) : Result :=
  branchIf .hi off s

/-- BLS (R441). -/
def execTBls (off : BitVec 8) (s : State) : Result :=
  branchIf .ls off s

/-- BGE (R441). -/
def execTBge (off : BitVec 8) (s : State) : Result :=
  branchIf .ge off s

/-- BLT (R441). -/
def execTBlt (off : BitVec 8) (s : State) : Result :=
  branchIf .lt off s

/-- BGT (R441). -/
def execTBgt (off : BitVec 8) (s : State) : Result :=
  branchIf .gt off s

/-- BLE (R441). -/
def execTBle (off : BitVec 8) (s : State) : Result :=
  branchIf .le off s

/-- SWI imm8: R14_svc is pc + 2 (R443). -/
def execTSwi (_imm : BitVec 8) (s : State) : Result :=
  .next (takeTrap .swi s)

/-- B (R444). -/
def execTB (off : BitVec 11) (s : State) : Result :=
  .next (branchTo (s.pc + 4 + branchOffset off 1) s)

/-- BL, first half: only LR changes (R446). -/
def execTBlHi (off : BitVec 11) (s : State) : Result :=
  advance (writeReg s 14 (s.pc + 4 + branchOffset off 12))

/-- BL, second half: branch from LR, LR the next address with bit 0 set (R447). -/
def execTBlLo (off : BitVec 11) (s : State) : Result :=
  .next (branchTo (halfMask (readReg s 14 + scaled off 1)) (writeReg s 14 ((s.pc + 2) ||| 1)))

end Sys2Proof.Machine
end

