-- ==== Sys2Proof/Machine/ThumbLoadStore.lean ====
section
/-! DEFINITION. Thumb formats 6 to 15 (spec/48_thumb_load_store.md R400 to R427). -/

namespace Sys2Proof.Machine

/-- A Thumb load: no write-back; the privilege is the mode's (R415). -/
def thumbLoad (k : LoadKind) (rd : LoReg) (a : Word) (s : State) : Result :=
  loadSingle k s.cpsr.mode.privileged 0 (lo rd) { addr := a, wb := none } s

/-- A Thumb store: no write-back (R415). -/
def thumbStore (size : Size) (rd : LoReg) (a : Word) (s : State) : Result :=
  storeSingle size s.cpsr.mode.privileged 0 (lo rd) { addr := a, wb := none } s

/-- `(pc + 4) AND 0xFFFFFFFC` (R400, R421). -/
def pcBase (s : State) : Word := wordMask (s.pc + 4)

/-- The registers of a PUSH or POP: the low registers of the list, then `last` where R = 1 (R424, R425). -/
def stackRegs (r : Bool) (list : BitVec 8) (last : Reg) : List Reg := regsOf list ++ (if r then [last] else [])

/-- PUSH: a store of the list below SP, SP left at its start (R424). -/
def push (regs : List Reg) (s : State) : Result :=
  let start := blockBase false (readReg s 13) regs.length
  blockStore s.cpsr.mode 13 regs start (some start) s

/-- An increment-after load that always writes the base back (R425, R427). -/
def loadUp (rb : Reg) (regs : List Reg) (s : State) : Result :=
  blockLoad .thumb s.cpsr.mode rb regs (readReg s rb) (some (blockBase true (readReg s rb) regs.length)) s

/-- An increment-after store that always writes the base back (R426). -/
def storeUp (rb : Reg) (regs : List Reg) (s : State) : Result :=
  blockStore s.cpsr.mode rb regs (readReg s rb) (some (blockBase true (readReg s rb) regs.length)) s

/-- LDR Rd, [PC, #imm] (R400). -/
def execTLdrPc (rd : LoReg) (imm : BitVec 8) (s : State) : Result :=
  thumbLoad .word rd (pcBase s + scaled imm 2) s

/-- STR Rd, [Rb, Ro] (R401). -/
def execTStrReg (ro rb rd : LoReg) (s : State) : Result :=
  thumbStore .word rd (readReg s (lo rb) + readReg s (lo ro)) s

/-- STRB Rd, [Rb, Ro] (R402). -/
def execTStrbReg (ro rb rd : LoReg) (s : State) : Result :=
  thumbStore .byte rd (readReg s (lo rb) + readReg s (lo ro)) s

/-- LDR Rd, [Rb, Ro] (R403). -/
def execTLdrReg (ro rb rd : LoReg) (s : State) : Result :=
  thumbLoad .word rd (readReg s (lo rb) + readReg s (lo ro)) s

/-- LDRB Rd, [Rb, Ro] (R404). -/
def execTLdrbReg (ro rb rd : LoReg) (s : State) : Result :=
  thumbLoad .byte rd (readReg s (lo rb) + readReg s (lo ro)) s

/-- STRH Rd, [Rb, Ro] (R405). -/
def execTStrhReg (ro rb rd : LoReg) (s : State) : Result :=
  thumbStore .half rd (readReg s (lo rb) + readReg s (lo ro)) s

/-- LDRH Rd, [Rb, Ro] (R406). -/
def execTLdrhReg (ro rb rd : LoReg) (s : State) : Result :=
  thumbLoad .half rd (readReg s (lo rb) + readReg s (lo ro)) s

/-- LDSB Rd, [Rb, Ro] (R407). -/
def execTLdsbReg (ro rb rd : LoReg) (s : State) : Result :=
  thumbLoad .signedByte rd (readReg s (lo rb) + readReg s (lo ro)) s

/-- LDSH Rd, [Rb, Ro] (R408). -/
def execTLdshReg (ro rb rd : LoReg) (s : State) : Result :=
  thumbLoad .signedHalf rd (readReg s (lo rb) + readReg s (lo ro)) s

/-- STR Rd, [Rb, #imm] (R409). -/
def execTStrImm (imm : BitVec 5) (rb rd : LoReg) (s : State) : Result :=
  thumbStore .word rd (readReg s (lo rb) + scaled imm 2) s

/-- LDR Rd, [Rb, #imm] (R410). -/
def execTLdrImm (imm : BitVec 5) (rb rd : LoReg) (s : State) : Result :=
  thumbLoad .word rd (readReg s (lo rb) + scaled imm 2) s

/-- STRB Rd, [Rb, #imm] (R411). -/
def execTStrbImm (imm : BitVec 5) (rb rd : LoReg) (s : State) : Result :=
  thumbStore .byte rd (readReg s (lo rb) + scaled imm 0) s

/-- LDRB Rd, [Rb, #imm] (R412). -/
def execTLdrbImm (imm : BitVec 5) (rb rd : LoReg) (s : State) : Result :=
  thumbLoad .byte rd (readReg s (lo rb) + scaled imm 0) s

/-- STRH Rd, [Rb, #imm] (R413). -/
def execTStrhImm (imm : BitVec 5) (rb rd : LoReg) (s : State) : Result :=
  thumbStore .half rd (readReg s (lo rb) + scaled imm 1) s

/-- LDRH Rd, [Rb, #imm] (R414). -/
def execTLdrhImm (imm : BitVec 5) (rb rd : LoReg) (s : State) : Result :=
  thumbLoad .half rd (readReg s (lo rb) + scaled imm 1) s

/-- STR Rd, [SP, #imm] (R418). -/
def execTStrSp (rd : LoReg) (imm : BitVec 8) (s : State) : Result :=
  thumbStore .word rd (readReg s 13 + scaled imm 2) s

/-- LDR Rd, [SP, #imm] (R419). -/
def execTLdrSp (rd : LoReg) (imm : BitVec 8) (s : State) : Result :=
  thumbLoad .word rd (readReg s 13 + scaled imm 2) s

/-- ADD Rd, PC, #imm (R421). -/
def execTAddPc (rd : LoReg) (imm : BitVec 8) (s : State) : Result :=
  advance (writeReg s (lo rd) (pcBase s + scaled imm 2))

/-- ADD Rd, SP, #imm (R420). -/
def execTAddSp (rd : LoReg) (imm : BitVec 8) (s : State) : Result :=
  advance (writeReg s (lo rd) (readReg s 13 + scaled imm 2))

/-- ADD SP, #imm (R422). -/
def execTAddSpImm (imm : BitVec 7) (s : State) : Result :=
  advance (writeReg s 13 (readReg s 13 + scaled imm 2))

/-- ADD SP, #-imm (R423). -/
def execTSubSpImm (imm : BitVec 7) (s : State) : Result :=
  advance (writeReg s 13 (readReg s 13 - scaled imm 2))

/-- PUSH (R424). -/
def execTPush (r : Bool) (list : BitVec 8) (s : State) : Result :=
  checked (stackRule r list) (push (stackRegs r list 14) s)

/-- POP (R425). -/
def execTPop (r : Bool) (list : BitVec 8) (s : State) : Result :=
  checked (stackRule r list) (loadUp 13 (stackRegs r list 15) s)

/-- STMIA Rb!, {Rlist} (R426). -/
def execTStmia (rb : LoReg) (list : BitVec 8) (s : State) : Result :=
  checked (stmiaRule rb list) (storeUp (lo rb) (regsOf list) s)

/-- LDMIA Rb!, {Rlist} (R427). -/
def execTLdmia (rb : LoReg) (list : BitVec 8) (s : State) : Result :=
  checked (ldmiaRule rb list) (loadUp (lo rb) (regsOf list) s)

end Sys2Proof.Machine
end

