-- ==== Sys2Proof/Machine/Dispatch.lean ====
section
/-! DEFINITION. The dispatch: one arm for each constructor of Instr, a direct call of its meaning. -/

namespace Sys2Proof.Machine

/-- What an instruction does to a state. -/
def exec (i : Instr) (s : State) : Host.Outcome State Fault Refusal :=
  match i with
  | .b c off => Sys2Proof.Machine.execB c off s
  | .bl c off => Sys2Proof.Machine.execBl c off s
  | .bx c rn => Sys2Proof.Machine.execBx c rn s
  | .andImm c sf rn rd o => Sys2Proof.Machine.execAndImm c sf rn rd o s
  | .andShImm c sf rn rd o => Sys2Proof.Machine.execAndShImm c sf rn rd o s
  | .andShReg c sf rn rd o => Sys2Proof.Machine.execAndShReg c sf rn rd o s
  | .eorImm c sf rn rd o => Sys2Proof.Machine.execEorImm c sf rn rd o s
  | .eorShImm c sf rn rd o => Sys2Proof.Machine.execEorShImm c sf rn rd o s
  | .eorShReg c sf rn rd o => Sys2Proof.Machine.execEorShReg c sf rn rd o s
  | .subImm c sf rn rd o => Sys2Proof.Machine.execSubImm c sf rn rd o s
  | .subShImm c sf rn rd o => Sys2Proof.Machine.execSubShImm c sf rn rd o s
  | .subShReg c sf rn rd o => Sys2Proof.Machine.execSubShReg c sf rn rd o s
  | .rsbImm c sf rn rd o => Sys2Proof.Machine.execRsbImm c sf rn rd o s
  | .rsbShImm c sf rn rd o => Sys2Proof.Machine.execRsbShImm c sf rn rd o s
  | .rsbShReg c sf rn rd o => Sys2Proof.Machine.execRsbShReg c sf rn rd o s
  | .addImm c sf rn rd o => Sys2Proof.Machine.execAddImm c sf rn rd o s
  | .addShImm c sf rn rd o => Sys2Proof.Machine.execAddShImm c sf rn rd o s
  | .addShReg c sf rn rd o => Sys2Proof.Machine.execAddShReg c sf rn rd o s
  | .adcImm c sf rn rd o => Sys2Proof.Machine.execAdcImm c sf rn rd o s
  | .adcShImm c sf rn rd o => Sys2Proof.Machine.execAdcShImm c sf rn rd o s
  | .adcShReg c sf rn rd o => Sys2Proof.Machine.execAdcShReg c sf rn rd o s
  | .sbcImm c sf rn rd o => Sys2Proof.Machine.execSbcImm c sf rn rd o s
  | .sbcShImm c sf rn rd o => Sys2Proof.Machine.execSbcShImm c sf rn rd o s
  | .sbcShReg c sf rn rd o => Sys2Proof.Machine.execSbcShReg c sf rn rd o s
  | .rscImm c sf rn rd o => Sys2Proof.Machine.execRscImm c sf rn rd o s
  | .rscShImm c sf rn rd o => Sys2Proof.Machine.execRscShImm c sf rn rd o s
  | .rscShReg c sf rn rd o => Sys2Proof.Machine.execRscShReg c sf rn rd o s
  | .tstImm c rn o => Sys2Proof.Machine.execTstImm c rn o s
  | .tstShImm c rn o => Sys2Proof.Machine.execTstShImm c rn o s
  | .tstShReg c rn o => Sys2Proof.Machine.execTstShReg c rn o s
  | .teqImm c rn o => Sys2Proof.Machine.execTeqImm c rn o s
  | .teqShImm c rn o => Sys2Proof.Machine.execTeqShImm c rn o s
  | .teqShReg c rn o => Sys2Proof.Machine.execTeqShReg c rn o s
  | .cmpImm c rn o => Sys2Proof.Machine.execCmpImm c rn o s
  | .cmpShImm c rn o => Sys2Proof.Machine.execCmpShImm c rn o s
  | .cmpShReg c rn o => Sys2Proof.Machine.execCmpShReg c rn o s
  | .cmnImm c rn o => Sys2Proof.Machine.execCmnImm c rn o s
  | .cmnShImm c rn o => Sys2Proof.Machine.execCmnShImm c rn o s
  | .cmnShReg c rn o => Sys2Proof.Machine.execCmnShReg c rn o s
  | .orrImm c sf rn rd o => Sys2Proof.Machine.execOrrImm c sf rn rd o s
  | .orrShImm c sf rn rd o => Sys2Proof.Machine.execOrrShImm c sf rn rd o s
  | .orrShReg c sf rn rd o => Sys2Proof.Machine.execOrrShReg c sf rn rd o s
  | .movImm c sf rd o => Sys2Proof.Machine.execMovImm c sf rd o s
  | .movShImm c sf rd o => Sys2Proof.Machine.execMovShImm c sf rd o s
  | .movShReg c sf rd o => Sys2Proof.Machine.execMovShReg c sf rd o s
  | .bicImm c sf rn rd o => Sys2Proof.Machine.execBicImm c sf rn rd o s
  | .bicShImm c sf rn rd o => Sys2Proof.Machine.execBicShImm c sf rn rd o s
  | .bicShReg c sf rn rd o => Sys2Proof.Machine.execBicShReg c sf rn rd o s
  | .mvnImm c sf rd o => Sys2Proof.Machine.execMvnImm c sf rd o s
  | .mvnShImm c sf rd o => Sys2Proof.Machine.execMvnShImm c sf rd o s
  | .mvnShReg c sf rd o => Sys2Proof.Machine.execMvnShReg c sf rd o s
  | .mrs c spsr rd => Sys2Proof.Machine.execMrs c spsr rd s
  | .msrReg c spsr mask rm => Sys2Proof.Machine.execMsrReg c spsr mask rm s
  | .msrImm c spsr mask o => Sys2Proof.Machine.execMsrImm c spsr mask o s
  | .mul c sf rd rs rm => Sys2Proof.Machine.execMul c sf rd rs rm s
  | .mla c sf rd rn rs rm => Sys2Proof.Machine.execMla c sf rd rn rs rm s
  | .umull c sf hi lo rs rm => Sys2Proof.Machine.execUmull c sf hi lo rs rm s
  | .umlal c sf hi lo rs rm => Sys2Proof.Machine.execUmlal c sf hi lo rs rm s
  | .smull c sf hi lo rs rm => Sys2Proof.Machine.execSmull c sf hi lo rs rm s
  | .smlal c sf hi lo rs rm => Sys2Proof.Machine.execSmlal c sf hi lo rs rm s
  | .swp c rn rd rm => Sys2Proof.Machine.execSwp c rn rd rm s
  | .swpb c rn rd rm => Sys2Proof.Machine.execSwpb c rn rd rm s
  | .strhReg c p u w rn rd rm => Sys2Proof.Machine.execStrhReg c p u w rn rd rm s
  | .strhImm c p u w rn rd imm => Sys2Proof.Machine.execStrhImm c p u w rn rd imm s
  | .ldrhReg c p u w rn rd rm => Sys2Proof.Machine.execLdrhReg c p u w rn rd rm s
  | .ldrhImm c p u w rn rd imm => Sys2Proof.Machine.execLdrhImm c p u w rn rd imm s
  | .ldrsbReg c p u w rn rd rm => Sys2Proof.Machine.execLdrsbReg c p u w rn rd rm s
  | .ldrsbImm c p u w rn rd imm => Sys2Proof.Machine.execLdrsbImm c p u w rn rd imm s
  | .ldrshReg c p u w rn rd rm => Sys2Proof.Machine.execLdrshReg c p u w rn rd rm s
  | .ldrshImm c p u w rn rd imm => Sys2Proof.Machine.execLdrshImm c p u w rn rd imm s
  | .strImmPre c u w rn rd imm => Sys2Proof.Machine.execStrImmPre c u w rn rd imm s
  | .strImmPost c u rn rd imm => Sys2Proof.Machine.execStrImmPost c u rn rd imm s
  | .strtImm c u rn rd imm => Sys2Proof.Machine.execStrtImm c u rn rd imm s
  | .strRegPre c u w rn rd o => Sys2Proof.Machine.execStrRegPre c u w rn rd o s
  | .strRegPost c u rn rd o => Sys2Proof.Machine.execStrRegPost c u rn rd o s
  | .strtReg c u rn rd o => Sys2Proof.Machine.execStrtReg c u rn rd o s
  | .ldrImmPre c u w rn rd imm => Sys2Proof.Machine.execLdrImmPre c u w rn rd imm s
  | .ldrImmPost c u rn rd imm => Sys2Proof.Machine.execLdrImmPost c u rn rd imm s
  | .ldrtImm c u rn rd imm => Sys2Proof.Machine.execLdrtImm c u rn rd imm s
  | .ldrRegPre c u w rn rd o => Sys2Proof.Machine.execLdrRegPre c u w rn rd o s
  | .ldrRegPost c u rn rd o => Sys2Proof.Machine.execLdrRegPost c u rn rd o s
  | .ldrtReg c u rn rd o => Sys2Proof.Machine.execLdrtReg c u rn rd o s
  | .strbImmPre c u w rn rd imm => Sys2Proof.Machine.execStrbImmPre c u w rn rd imm s
  | .strbImmPost c u rn rd imm => Sys2Proof.Machine.execStrbImmPost c u rn rd imm s
  | .strbtImm c u rn rd imm => Sys2Proof.Machine.execStrbtImm c u rn rd imm s
  | .strbRegPre c u w rn rd o => Sys2Proof.Machine.execStrbRegPre c u w rn rd o s
  | .strbRegPost c u rn rd o => Sys2Proof.Machine.execStrbRegPost c u rn rd o s
  | .strbtReg c u rn rd o => Sys2Proof.Machine.execStrbtReg c u rn rd o s
  | .ldrbImmPre c u w rn rd imm => Sys2Proof.Machine.execLdrbImmPre c u w rn rd imm s
  | .ldrbImmPost c u rn rd imm => Sys2Proof.Machine.execLdrbImmPost c u rn rd imm s
  | .ldrbtImm c u rn rd imm => Sys2Proof.Machine.execLdrbtImm c u rn rd imm s
  | .ldrbRegPre c u w rn rd o => Sys2Proof.Machine.execLdrbRegPre c u w rn rd o s
  | .ldrbRegPost c u rn rd o => Sys2Proof.Machine.execLdrbRegPost c u rn rd o s
  | .ldrbtReg c u rn rd o => Sys2Proof.Machine.execLdrbtReg c u rn rd o s
  | .undef c hi lo => Sys2Proof.Machine.execUndef c hi lo s
  | .ldm c p u w rn list => Sys2Proof.Machine.execLdm c p u w rn list s
  | .ldmRet c p u w rn list => Sys2Proof.Machine.execLdmRet c p u w rn list s
  | .ldmUser c p u w rn list => Sys2Proof.Machine.execLdmUser c p u w rn list s
  | .stm c p u w rn list => Sys2Proof.Machine.execStm c p u w rn list s
  | .stmUser c p u w rn list => Sys2Proof.Machine.execStmUser c p u w rn list s
  | .stc c p u n w rn crd cp imm => Sys2Proof.Machine.execStc c p u n w rn crd cp imm s
  | .ldc c p u n w rn crd cp imm => Sys2Proof.Machine.execLdc c p u n w rn crd cp imm s
  | .cdp c opc1 crn crd cp opc2 crm => Sys2Proof.Machine.execCdp c opc1 crn crd cp opc2 crm s
  | .mcr c opc1 crn rd cp opc2 crm => Sys2Proof.Machine.execMcr c opc1 crn rd cp opc2 crm s
  | .mrc c opc1 crn rd cp opc2 crm => Sys2Proof.Machine.execMrc c opc1 crn rd cp opc2 crm s
  | .swi c imm => Sys2Proof.Machine.execSwi c imm s
  | .tLslImm imm rs rd => Sys2Proof.Machine.execTLslImm imm rs rd s
  | .tLsrImm imm rs rd => Sys2Proof.Machine.execTLsrImm imm rs rd s
  | .tAsrImm imm rs rd => Sys2Proof.Machine.execTAsrImm imm rs rd s
  | .tAddReg rn rs rd => Sys2Proof.Machine.execTAddReg rn rs rd s
  | .tSubReg rn rs rd => Sys2Proof.Machine.execTSubReg rn rs rd s
  | .tAddImm3 imm rs rd => Sys2Proof.Machine.execTAddImm3 imm rs rd s
  | .tSubImm3 imm rs rd => Sys2Proof.Machine.execTSubImm3 imm rs rd s
  | .tMovImm rd imm => Sys2Proof.Machine.execTMovImm rd imm s
  | .tCmpImm rd imm => Sys2Proof.Machine.execTCmpImm rd imm s
  | .tAddImm8 rd imm => Sys2Proof.Machine.execTAddImm8 rd imm s
  | .tSubImm8 rd imm => Sys2Proof.Machine.execTSubImm8 rd imm s
  | .tAnd rs rd => Sys2Proof.Machine.execTAnd rs rd s
  | .tEor rs rd => Sys2Proof.Machine.execTEor rs rd s
  | .tLslReg rs rd => Sys2Proof.Machine.execTLslReg rs rd s
  | .tLsrReg rs rd => Sys2Proof.Machine.execTLsrReg rs rd s
  | .tAsrReg rs rd => Sys2Proof.Machine.execTAsrReg rs rd s
  | .tAdc rs rd => Sys2Proof.Machine.execTAdc rs rd s
  | .tSbc rs rd => Sys2Proof.Machine.execTSbc rs rd s
  | .tRorReg rs rd => Sys2Proof.Machine.execTRorReg rs rd s
  | .tTst rs rd => Sys2Proof.Machine.execTTst rs rd s
  | .tNeg rs rd => Sys2Proof.Machine.execTNeg rs rd s
  | .tCmpReg rs rd => Sys2Proof.Machine.execTCmpReg rs rd s
  | .tCmn rs rd => Sys2Proof.Machine.execTCmn rs rd s
  | .tOrr rs rd => Sys2Proof.Machine.execTOrr rs rd s
  | .tMul rs rd => Sys2Proof.Machine.execTMul rs rd s
  | .tBic rs rd => Sys2Proof.Machine.execTBic rs rd s
  | .tMvn rs rd => Sys2Proof.Machine.execTMvn rs rd s
  | .tAddHd hd rs => Sys2Proof.Machine.execTAddHd hd rs s
  | .tAddHs rd hs => Sys2Proof.Machine.execTAddHs rd hs s
  | .tCmpHd hd rs => Sys2Proof.Machine.execTCmpHd hd rs s
  | .tCmpHs rd hs => Sys2Proof.Machine.execTCmpHs rd hs s
  | .tMovHd hd rs => Sys2Proof.Machine.execTMovHd hd rs s
  | .tMovHs rd hs => Sys2Proof.Machine.execTMovHs rd hs s
  | .tBx rs => Sys2Proof.Machine.execTBx rs s
  | .tLdrPc rd imm => Sys2Proof.Machine.execTLdrPc rd imm s
  | .tStrReg ro rb rd => Sys2Proof.Machine.execTStrReg ro rb rd s
  | .tStrbReg ro rb rd => Sys2Proof.Machine.execTStrbReg ro rb rd s
  | .tLdrReg ro rb rd => Sys2Proof.Machine.execTLdrReg ro rb rd s
  | .tLdrbReg ro rb rd => Sys2Proof.Machine.execTLdrbReg ro rb rd s
  | .tStrhReg ro rb rd => Sys2Proof.Machine.execTStrhReg ro rb rd s
  | .tLdrhReg ro rb rd => Sys2Proof.Machine.execTLdrhReg ro rb rd s
  | .tLdsbReg ro rb rd => Sys2Proof.Machine.execTLdsbReg ro rb rd s
  | .tLdshReg ro rb rd => Sys2Proof.Machine.execTLdshReg ro rb rd s
  | .tStrImm imm rb rd => Sys2Proof.Machine.execTStrImm imm rb rd s
  | .tLdrImm imm rb rd => Sys2Proof.Machine.execTLdrImm imm rb rd s
  | .tStrbImm imm rb rd => Sys2Proof.Machine.execTStrbImm imm rb rd s
  | .tLdrbImm imm rb rd => Sys2Proof.Machine.execTLdrbImm imm rb rd s
  | .tStrhImm imm rb rd => Sys2Proof.Machine.execTStrhImm imm rb rd s
  | .tLdrhImm imm rb rd => Sys2Proof.Machine.execTLdrhImm imm rb rd s
  | .tStrSp rd imm => Sys2Proof.Machine.execTStrSp rd imm s
  | .tLdrSp rd imm => Sys2Proof.Machine.execTLdrSp rd imm s
  | .tAddPc rd imm => Sys2Proof.Machine.execTAddPc rd imm s
  | .tAddSp rd imm => Sys2Proof.Machine.execTAddSp rd imm s
  | .tAddSpImm imm => Sys2Proof.Machine.execTAddSpImm imm s
  | .tSubSpImm imm => Sys2Proof.Machine.execTSubSpImm imm s
  | .tPush r list => Sys2Proof.Machine.execTPush r list s
  | .tPop r list => Sys2Proof.Machine.execTPop r list s
  | .tStmia rb list => Sys2Proof.Machine.execTStmia rb list s
  | .tLdmia rb list => Sys2Proof.Machine.execTLdmia rb list s
  | .tBeq off => Sys2Proof.Machine.execTBeq off s
  | .tBne off => Sys2Proof.Machine.execTBne off s
  | .tBcs off => Sys2Proof.Machine.execTBcs off s
  | .tBcc off => Sys2Proof.Machine.execTBcc off s
  | .tBmi off => Sys2Proof.Machine.execTBmi off s
  | .tBpl off => Sys2Proof.Machine.execTBpl off s
  | .tBvs off => Sys2Proof.Machine.execTBvs off s
  | .tBvc off => Sys2Proof.Machine.execTBvc off s
  | .tBhi off => Sys2Proof.Machine.execTBhi off s
  | .tBls off => Sys2Proof.Machine.execTBls off s
  | .tBge off => Sys2Proof.Machine.execTBge off s
  | .tBlt off => Sys2Proof.Machine.execTBlt off s
  | .tBgt off => Sys2Proof.Machine.execTBgt off s
  | .tBle off => Sys2Proof.Machine.execTBle off s
  | .tSwi imm => Sys2Proof.Machine.execTSwi imm s
  | .tB off => Sys2Proof.Machine.execTB off s
  | .tBlHi off => Sys2Proof.Machine.execTBlHi off s
  | .tBlLo off => Sys2Proof.Machine.execTBlLo off s

end Sys2Proof.Machine
end

