-- ==== Sys2Proof/Machine/Step.lean ====
section
/-! DEFINITION. One step of the machine: an exception entry, or the instruction at the pc (spec/00_scope.md R7), which a reset
may abandon (70_reset_and_hazards R522). -/

namespace Sys2Proof.Machine

/-- What a step comes to where no reset falls into it. -/
def wholeStep (s : State) : Host.Outcome State Fault Refusal :=
  match fetch s with
  | .taken t => .next t
  | .stop r => .refused r
  | .fault f => .fault f
  | .run i t => exec i t

/-- One step. -/
def step (s : State) : Host.Outcome State Fault Refusal := endStep s (wholeStep s)

/-- The state with an instruction placed where the next step fetches: a load from outside the machine (log entry 26). -/
def State.withFetchWord (s : State) (nbits w : Nat) : State := placeWord s nbits w

end Sys2Proof.Machine
end

