-- ==== Sys2Proof/Machine/Pins.lean ====
section
/-! DEFINITION. The levels the core drives on its output pins during a bus access, and the coding of the bus cycle types
(spec/20_memory.md R97 to R105, 10_state R51). true is HIGH. -/

namespace Sys2Proof.Machine

/-- nRW: 1 is a write cycle (R97). -/
def Access.nRW (x : Access) : Bool := x.write

/-- nOPC: LOW for an instruction fetch, HIGH for data (R98). -/
def Access.nOPC (x : Access) : Bool :=
  match x.kind with
  | .fetch => false
  | .data => true

/-- nTRANS: LOW for User, HIGH for privileged (R99). -/
def Access.nTRANS (x : Access) : Bool := x.priv

/-- LOCK: HIGH in the cycles of SWP and SWPB (R100). -/
def Access.LOCK (x : Access) : Bool := x.locked

/-- TBIT: HIGH in Thumb state (R101). -/
def Access.TBIT (x : Access) : Bool := x.thumb

/-- MAS[1:0] (R102). -/
def Access.MAS (x : Access) : BitVec 2 :=
  match x.size with
  | .byte => 0b00#2
  | .half => 0b01#2
  | .word => 0b10#2

/-- nM[4:0]: the inverse of the mode bits (10_state R51). -/
def Access.nM (x : Access) : BitVec 5 := ~~~x.mode.bits

/-- The four bus cycle types (R104). -/
inductive BusCycle where
  | n | s | i | c
  deriving DecidableEq, Repr

/-- (nMREQ, SEQ) of a cycle type (R104). -/
def BusCycle.code : BusCycle → Bool × Bool
  | .n => (false, false)
  | .s => (false, true)
  | .i => (true, false)
  | .c => (true, true)

/-- The cycle type of (nMREQ, SEQ) (R104). -/
def BusCycle.ofCode (nMREQ seq : Bool) : BusCycle :=
  match nMREQ, seq with
  | false, false => .n
  | false, true => .s
  | true, false => .i
  | true, true => .c

end Sys2Proof.Machine
end

