-- ==== Sys2Proof/Safety.lean ====
section
/-! DEFINITION. What claims are stated in terms of: the invariant of every state a run reaches, the states reset may leave, a run
that never stops, and the state an instruction executes in. -/

namespace Sys2Proof

open Sys2Proof.Machine

/-- The invariant: memory is in its canonical form and the pc is aligned for the state (20_memory R86, 10_state R33). -/
def Inv (s : State) : Prop := s.mem.wf = true ∧ pcAligned s = true

/-- A state the machine may be in right after reset, whatever the unspecified registers, flags, memory and platform hold
(10_state R60, 92_eei_decisions D12). -/
def AfterReset (s : State) : Prop :=
  s.pc = 0 ∧ s.cpsr.mode = .svc ∧ s.cpsr.i = true ∧ s.cpsr.f = true ∧ s.cpsr.t = false ∧ s.pipe = Pipe.empty ∧
  s.userLdm = false

/-- `k` steps from `s` meet no fault and no refusal. -/
def SafeFor : Nat → State → Prop
  | 0, _ => True
  | k + 1, s => ∃ t, step s = .next t ∧ SafeFor k t

/-- The state of the processor is the instruction's own: ARM with T = 0, Thumb with T = 1 (30_encoding R140). -/
def InState (i : Instr) (s : State) : Prop := s.cpsr.t = isThumb i

end Sys2Proof
end

