-- ==== Sys2Proof/WellFormed.lean ====
section
/-! DEFINITION. Which instructions are well formed: those whose fields keep every restriction of their rule. An
instruction that is not is UNPREDICTABLE when its condition passes, and its meaning then refuses it by the same function. -/

namespace Sys2Proof

open Sys2Proof.Machine

/-- The restriction of its own rule that an instruction's fields break, if any. -/
def Instr.broken : Instr → Option Restriction
  | .b _ _ => none
  | .bl _ _ => none
  | .bx _ rn => pcRule [rn]
  | .andImm _ _ _ _ _ => none
  | .andShImm _ _ _ _ _ => none
  | .andShReg _ _ rn rd o => pcRule [rn, rd, o.rs, o.rm]
  | .eorImm _ _ _ _ _ => none
  | .eorShImm _ _ _ _ _ => none
  | .eorShReg _ _ rn rd o => pcRule [rn, rd, o.rs, o.rm]
  | .subImm _ _ _ _ _ => none
  | .subShImm _ _ _ _ _ => none
  | .subShReg _ _ rn rd o => pcRule [rn, rd, o.rs, o.rm]
  | .rsbImm _ _ _ _ _ => none
  | .rsbShImm _ _ _ _ _ => none
  | .rsbShReg _ _ rn rd o => pcRule [rn, rd, o.rs, o.rm]
  | .addImm _ _ _ _ _ => none
  | .addShImm _ _ _ _ _ => none
  | .addShReg _ _ rn rd o => pcRule [rn, rd, o.rs, o.rm]
  | .adcImm _ _ _ _ _ => none
  | .adcShImm _ _ _ _ _ => none
  | .adcShReg _ _ rn rd o => pcRule [rn, rd, o.rs, o.rm]
  | .sbcImm _ _ _ _ _ => none
  | .sbcShImm _ _ _ _ _ => none
  | .sbcShReg _ _ rn rd o => pcRule [rn, rd, o.rs, o.rm]
  | .rscImm _ _ _ _ _ => none
  | .rscShImm _ _ _ _ _ => none
  | .rscShReg _ _ rn rd o => pcRule [rn, rd, o.rs, o.rm]
  | .tstImm _ _ _ => none
  | .tstShImm _ _ _ => none
  | .tstShReg _ rn o => pcRule [rn, o.rs, o.rm]
  | .teqImm _ _ _ => none
  | .teqShImm _ _ _ => none
  | .teqShReg _ rn o => pcRule [rn, o.rs, o.rm]
  | .cmpImm _ _ _ => none
  | .cmpShImm _ _ _ => none
  | .cmpShReg _ rn o => pcRule [rn, o.rs, o.rm]
  | .cmnImm _ _ _ => none
  | .cmnShImm _ _ _ => none
  | .cmnShReg _ rn o => pcRule [rn, o.rs, o.rm]
  | .orrImm _ _ _ _ _ => none
  | .orrShImm _ _ _ _ _ => none
  | .orrShReg _ _ rn rd o => pcRule [rn, rd, o.rs, o.rm]
  | .movImm _ _ _ _ => none
  | .movShImm _ _ _ _ => none
  | .movShReg _ _ rd o => pcRule [rd, o.rs, o.rm]
  | .bicImm _ _ _ _ _ => none
  | .bicShImm _ _ _ _ _ => none
  | .bicShReg _ _ rn rd o => pcRule [rn, rd, o.rs, o.rm]
  | .mvnImm _ _ _ _ => none
  | .mvnShImm _ _ _ _ => none
  | .mvnShReg _ _ rd o => pcRule [rd, o.rs, o.rm]
  | .mrs _ _ rd => pcRule [rd]
  | .msrReg _ _ _ rm => pcRule [rm]
  | .msrImm _ _ _ _ => none
  | .mul _ _ rd rs rm => mulRule rd rm [rs]
  | .mla _ _ rd rn rs rm => mulRule rd rm [rs, rn]
  | .umull _ _ hi lo rs rm => mulLongRule hi lo rs rm
  | .umlal _ _ hi lo rs rm => mulLongRule hi lo rs rm
  | .smull _ _ hi lo rs rm => mulLongRule hi lo rs rm
  | .smlal _ _ hi lo rs rm => mulLongRule hi lo rs rm
  | .swp _ rn rd rm => swapRule rn rd rm
  | .swpb _ rn rd rm => swapRule rn rd rm
  | .strhReg _ p _ w rn rd rm => halfRegRule p w rn rd rm
  | .strhImm _ p _ w rn rd _ => halfImmRule p w rn rd
  | .ldrhReg _ p _ w rn rd rm => halfRegRule p w rn rd rm
  | .ldrhImm _ p _ w rn rd _ => halfImmRule p w rn rd
  | .ldrsbReg _ p _ w rn rd rm => halfRegRule p w rn rd rm
  | .ldrsbImm _ p _ w rn rd _ => halfImmRule p w rn rd
  | .ldrshReg _ p _ w rn rd rm => halfRegRule p w rn rd rm
  | .ldrshImm _ p _ w rn rd _ => halfImmRule p w rn rd
  | .strImmPre _ _ w rn rd _ => singleImmRule true w rn rd
  | .strImmPost _ _ rn rd _ => singleImmRule true true rn rd
  | .strtImm _ _ rn rd _ => singleImmRule false true rn rd
  | .strRegPre _ _ w rn rd o => singleRegRule true false w rn rd o.rm
  | .strRegPost _ _ rn rd o => singleRegRule true true true rn rd o.rm
  | .strtReg _ _ rn rd o => singleRegRule false true true rn rd o.rm
  | .ldrImmPre _ _ w rn rd _ => singleImmRule true w rn rd
  | .ldrImmPost _ _ rn rd _ => singleImmRule true true rn rd
  | .ldrtImm _ _ rn rd _ => singleImmRule false true rn rd
  | .ldrRegPre _ _ w rn rd o => singleRegRule true false w rn rd o.rm
  | .ldrRegPost _ _ rn rd o => singleRegRule true true true rn rd o.rm
  | .ldrtReg _ _ rn rd o => singleRegRule false true true rn rd o.rm
  | .strbImmPre _ _ w rn rd _ => singleImmRule false w rn rd
  | .strbImmPost _ _ rn rd _ => singleImmRule false true rn rd
  | .strbtImm _ _ rn rd _ => singleImmRule false true rn rd
  | .strbRegPre _ _ w rn rd o => singleRegRule false false w rn rd o.rm
  | .strbRegPost _ _ rn rd o => singleRegRule false true true rn rd o.rm
  | .strbtReg _ _ rn rd o => singleRegRule false true true rn rd o.rm
  | .ldrbImmPre _ _ w rn rd _ => singleImmRule false w rn rd
  | .ldrbImmPost _ _ rn rd _ => singleImmRule false true rn rd
  | .ldrbtImm _ _ rn rd _ => singleImmRule false true rn rd
  | .ldrbRegPre _ _ w rn rd o => singleRegRule false false w rn rd o.rm
  | .ldrbRegPost _ _ rn rd o => singleRegRule false true true rn rd o.rm
  | .ldrbtReg _ _ rn rd o => singleRegRule false true true rn rd o.rm
  | .undef _ _ _ => none
  | .ldm _ _ _ w rn list => ldmRule w rn list
  | .ldmRet _ _ _ w rn list => ldmRule w rn (1#1 ++ list)
  | .ldmUser _ _ _ w rn list => userBankRule w rn list
  | .stm _ _ _ w rn list => stmRule w rn list
  | .stmUser _ _ _ w rn list => userBankRule w rn list
  | .stc _ _ _ _ _ _ _ cp _ => coprocRule cp
  | .ldc _ _ _ _ _ _ _ cp _ => coprocRule cp
  | .cdp _ _ _ _ cp _ _ => coprocRule cp
  | .mcr _ _ _ _ cp _ _ => coprocRule cp
  | .mrc _ _ _ _ cp _ _ => coprocRule cp
  | .swi _ _ => none
  | .tLslImm _ _ _ => none
  | .tLsrImm _ _ _ => none
  | .tAsrImm _ _ _ => none
  | .tAddReg _ _ _ => none
  | .tSubReg _ _ _ => none
  | .tAddImm3 _ _ _ => none
  | .tSubImm3 _ _ _ => none
  | .tMovImm _ _ => none
  | .tCmpImm _ _ => none
  | .tAddImm8 _ _ => none
  | .tSubImm8 _ _ => none
  | .tAnd _ _ => none
  | .tEor _ _ => none
  | .tLslReg _ _ => none
  | .tLsrReg _ _ => none
  | .tAsrReg _ _ => none
  | .tAdc _ _ => none
  | .tSbc _ _ => none
  | .tRorReg _ _ => none
  | .tTst _ _ => none
  | .tNeg _ _ => none
  | .tCmpReg _ _ => none
  | .tCmn _ _ => none
  | .tOrr _ _ => none
  | .tMul rs rd => thumbMulRule rs rd
  | .tBic _ _ => none
  | .tMvn _ _ => none
  | .tAddHd _ _ => none
  | .tAddHs _ _ => none
  | .tCmpHd hd _ => pcRule [hi hd]
  | .tCmpHs _ _ => none
  | .tMovHd _ _ => none
  | .tMovHs _ _ => none
  | .tBx _ => none
  | .tLdrPc _ _ => none
  | .tStrReg _ _ _ => none
  | .tStrbReg _ _ _ => none
  | .tLdrReg _ _ _ => none
  | .tLdrbReg _ _ _ => none
  | .tStrhReg _ _ _ => none
  | .tLdrhReg _ _ _ => none
  | .tLdsbReg _ _ _ => none
  | .tLdshReg _ _ _ => none
  | .tStrImm _ _ _ => none
  | .tLdrImm _ _ _ => none
  | .tStrbImm _ _ _ => none
  | .tLdrbImm _ _ _ => none
  | .tStrhImm _ _ _ => none
  | .tLdrhImm _ _ _ => none
  | .tStrSp _ _ => none
  | .tLdrSp _ _ => none
  | .tAddPc _ _ => none
  | .tAddSp _ _ => none
  | .tAddSpImm _ => none
  | .tSubSpImm _ => none
  | .tPush r list => stackRule r list
  | .tPop r list => stackRule r list
  | .tStmia rb list => stmiaRule rb list
  | .tLdmia rb list => ldmiaRule rb list
  | .tBeq _ => none
  | .tBne _ => none
  | .tBcs _ => none
  | .tBcc _ => none
  | .tBmi _ => none
  | .tBpl _ => none
  | .tBvs _ => none
  | .tBvc _ => none
  | .tBhi _ => none
  | .tBls _ => none
  | .tBge _ => none
  | .tBlt _ => none
  | .tBgt _ => none
  | .tBle _ => none
  | .tSwi _ => none
  | .tB _ => none
  | .tBlHi _ => none
  | .tBlLo _ => none

/-- No restriction on the fields is broken. -/
def Instr.wellFormed (i : Instr) : Bool := i.broken == none

end Sys2Proof
end

