-- ==== Sys2Proof/Claims/Shape.lean ====
section
/-! DEFINITION. The shapes of instructions that the statements speak of: when an instruction executes, its operands, and the
spec's own arithmetic for its result and flags, written with plain integer arithmetic beside the machine's adder. -/

namespace Sys2Proof.Claims

open Sys2Proof.Machine

/-- The next instruction in sequence is inside the address space (10_state R35). -/
def room (s : State) : Bool := decide (s.pc.toNat + (instrBytes s).toNat < 2 ^ 32)

/-- The state is the instruction's own (30_encoding R140), its condition passes (R143; a Thumb instruction has none) and its
fields keep the restrictions of its rule: the instruction executes. -/
def executes (i : Instr) (s : State) : Bool := s.cpsr.t == isThumb i && condPassed (condOf i) s.cpsr && i.wellFormed

/-- `t` with the pc at the instruction after the one `s` executes: pc + 4 in ARM state, pc + 2 in Thumb state (10_state R32). -/
def past (s t : State) : State := { t with pc := s.pc + (if s.cpsr.t then 2 else 4) }

/-- `t` with the pc at `a` and the pipeline refilled (10_state R32). -/
def goTo (a : Word) (t : State) : State := { t with pc := a, pipe := Pipe.empty }

/-! ## Results and flags of the sixteen operations (41_arm_data_processing R208 to R224) -/

/-- A flag as a number. -/
def bit (c : Bool) : Word := if c then 1 else 0

/-- The result column of R224. -/
def dpResult (op : AluOp) (a b : Word) (c : Bool) : Word :=
  match op with
  | .and => a &&& b
  | .eor => a ^^^ b
  | .sub => a - b
  | .rsb => b - a
  | .add => a + b
  | .adc => a + b + bit c
  | .sbc => a - b - bit (!c)
  | .rsc => b - a - bit (!c)
  | .tst => a &&& b
  | .teq => a ^^^ b
  | .cmp => a - b
  | .cmn => a + b
  | .orr => a ||| b
  | .mov => b
  | .bic => a &&& ~~~b
  | .mvn => ~~~b

/-- C after an operation with S = 1: carry out of an addition, no borrow of a subtraction, the shifter's carry-out `sc` of a
logical operation (10_state R36, R37). -/
def dpCarry (op : AluOp) (a b : Word) (c sc : Bool) : Bool :=
  match op with
  | .sub => decide (b.toNat ≤ a.toNat)
  | .rsb => decide (a.toNat ≤ b.toNat)
  | .add => decide (2 ^ 32 ≤ a.toNat + b.toNat)
  | .adc => decide (2 ^ 32 ≤ a.toNat + b.toNat + c.toNat)
  | .sbc => decide (b.toNat + (!c).toNat ≤ a.toNat)
  | .rsc => decide (a.toNat + (!c).toNat ≤ b.toNat)
  | .cmp => decide (b.toNat ≤ a.toNat)
  | .cmn => decide (2 ^ 32 ≤ a.toNat + b.toNat)
  | _ => sc

/-- An integer that is no 32-bit two's complement number. -/
def overflows (x : Int) : Bool := decide (x < -2 ^ 31) || decide (2 ^ 31 ≤ x)

/-- V after an operation with S = 1: the exact signed result does not fit; `v`, the old V, of a logical operation. -/
def dpOverflow (op : AluOp) (a b : Word) (c v : Bool) : Bool :=
  match op with
  | .sub => overflows (a.toInt - b.toInt)
  | .rsb => overflows (b.toInt - a.toInt)
  | .add => overflows (a.toInt + b.toInt)
  | .adc => overflows (a.toInt + b.toInt + c.toNat)
  | .sbc => overflows (a.toInt - b.toInt - (!c).toNat)
  | .rsc => overflows (b.toInt - a.toInt - (!c).toNat)
  | .cmp => overflows (a.toInt - b.toInt)
  | .cmn => overflows (a.toInt + b.toInt)
  | _ => v

/-- The CPSR with the four flags that an operation with S = 1 gives; the rest as it was. -/
def dpFlags (op : AluOp) (a : Word) (o : Shifted) (p : Psr) : Psr :=
  { p with
    n := decide ((dpResult op a o.value p.c).toInt < 0)
    z := decide (dpResult op a o.value p.c = 0)
    c := dpCarry op a o.value p.c o.carry
    v := dpOverflow op a o.value p.c p.v }

/-- The operations that write no register (R216 to R219). -/
def compares : AluOp → Bool
  | .tst => true
  | .teq => true
  | .cmp => true
  | .cmn => true
  | _ => false

/-- The logical operations that write Rd (R208, R209, R220 to R223). -/
def logical : AluOp → Bool
  | .and => true
  | .eor => true
  | .orr => true
  | .mov => true
  | .bic => true
  | .mvn => true
  | _ => false

/-- The arithmetic operations that write Rd (R210 to R215). -/
def arithmetic : AluOp → Bool
  | .sub => true
  | .rsb => true
  | .add => true
  | .adc => true
  | .sbc => true
  | .rsc => true
  | _ => false

/-- The three forms of the second operand (R201). -/
inductive Op2 where
  | imm (o : RotImm)
  | shImm (o : ShImm)
  | shReg (o : ShReg)
  deriving DecidableEq, Repr

/-- The second operand and the shifter's carry-out, by the machine's operand functions. -/
def Op2.value (s : State) : Op2 → Shifted
  | .imm o => immForm s o
  | .shImm o => shImmForm s o
  | .shReg o => shRegForm s o

/-- The data-processing instruction of an operation and an operand form. MOV and MVN have no Rn; a compare has neither S nor Rd. -/
def dpInstr (op : AluOp) (c : Cond) (sf : Bool) (rn rd : Reg) (o2 : Op2) : Instr :=
  match op, o2 with
  | .and, .imm o => .andImm c sf rn rd o
  | .and, .shImm o => .andShImm c sf rn rd o
  | .and, .shReg o => .andShReg c sf rn rd o
  | .eor, .imm o => .eorImm c sf rn rd o
  | .eor, .shImm o => .eorShImm c sf rn rd o
  | .eor, .shReg o => .eorShReg c sf rn rd o
  | .sub, .imm o => .subImm c sf rn rd o
  | .sub, .shImm o => .subShImm c sf rn rd o
  | .sub, .shReg o => .subShReg c sf rn rd o
  | .rsb, .imm o => .rsbImm c sf rn rd o
  | .rsb, .shImm o => .rsbShImm c sf rn rd o
  | .rsb, .shReg o => .rsbShReg c sf rn rd o
  | .add, .imm o => .addImm c sf rn rd o
  | .add, .shImm o => .addShImm c sf rn rd o
  | .add, .shReg o => .addShReg c sf rn rd o
  | .adc, .imm o => .adcImm c sf rn rd o
  | .adc, .shImm o => .adcShImm c sf rn rd o
  | .adc, .shReg o => .adcShReg c sf rn rd o
  | .sbc, .imm o => .sbcImm c sf rn rd o
  | .sbc, .shImm o => .sbcShImm c sf rn rd o
  | .sbc, .shReg o => .sbcShReg c sf rn rd o
  | .rsc, .imm o => .rscImm c sf rn rd o
  | .rsc, .shImm o => .rscShImm c sf rn rd o
  | .rsc, .shReg o => .rscShReg c sf rn rd o
  | .tst, .imm o => .tstImm c rn o
  | .tst, .shImm o => .tstShImm c rn o
  | .tst, .shReg o => .tstShReg c rn o
  | .teq, .imm o => .teqImm c rn o
  | .teq, .shImm o => .teqShImm c rn o
  | .teq, .shReg o => .teqShReg c rn o
  | .cmp, .imm o => .cmpImm c rn o
  | .cmp, .shImm o => .cmpShImm c rn o
  | .cmp, .shReg o => .cmpShReg c rn o
  | .cmn, .imm o => .cmnImm c rn o
  | .cmn, .shImm o => .cmnShImm c rn o
  | .cmn, .shReg o => .cmnShReg c rn o
  | .orr, .imm o => .orrImm c sf rn rd o
  | .orr, .shImm o => .orrShImm c sf rn rd o
  | .orr, .shReg o => .orrShReg c sf rn rd o
  | .mov, .imm o => .movImm c sf rd o
  | .mov, .shImm o => .movShImm c sf rd o
  | .mov, .shReg o => .movShReg c sf rd o
  | .bic, .imm o => .bicImm c sf rn rd o
  | .bic, .shImm o => .bicShImm c sf rn rd o
  | .bic, .shReg o => .bicShReg c sf rn rd o
  | .mvn, .imm o => .mvnImm c sf rd o
  | .mvn, .shImm o => .mvnShImm c sf rd o
  | .mvn, .shReg o => .mvnShReg c sf rd o

/-- A Thumb instruction of formats 1 to 4 or the format 5 CMP as one of the sixteen operations: the operation, Rd, the first
operand, the second operand with the shifter's carry-out (47_thumb_alu R341 to R367, R377, without MUL). -/
def thumbDp (s : State) : Instr → Option (AluOp × Reg × Word × Shifted)
  | .tLslImm imm rs rd => some (.mov, lo rd, 0, shiftImm .lsl (readReg s (lo rs)) imm s.cpsr.c)
  | .tLsrImm imm rs rd => some (.mov, lo rd, 0, shiftImm .lsr (readReg s (lo rs)) imm s.cpsr.c)
  | .tAsrImm imm rs rd => some (.mov, lo rd, 0, shiftImm .asr (readReg s (lo rs)) imm s.cpsr.c)
  | .tAddReg rn rs rd => some (.add, lo rd, readReg s (lo rs), ⟨readReg s (lo rn), s.cpsr.c⟩)
  | .tSubReg rn rs rd => some (.sub, lo rd, readReg s (lo rs), ⟨readReg s (lo rn), s.cpsr.c⟩)
  | .tAddImm3 imm rs rd => some (.add, lo rd, readReg s (lo rs), ⟨imm.setWidth 32, s.cpsr.c⟩)
  | .tSubImm3 imm rs rd => some (.sub, lo rd, readReg s (lo rs), ⟨imm.setWidth 32, s.cpsr.c⟩)
  | .tMovImm rd imm => some (.mov, lo rd, 0, ⟨imm.setWidth 32, s.cpsr.c⟩)
  | .tCmpImm rd imm => some (.cmp, lo rd, readReg s (lo rd), ⟨imm.setWidth 32, s.cpsr.c⟩)
  | .tAddImm8 rd imm => some (.add, lo rd, readReg s (lo rd), ⟨imm.setWidth 32, s.cpsr.c⟩)
  | .tSubImm8 rd imm => some (.sub, lo rd, readReg s (lo rd), ⟨imm.setWidth 32, s.cpsr.c⟩)
  | .tAnd rs rd => some (.and, lo rd, readReg s (lo rd), ⟨readReg s (lo rs), s.cpsr.c⟩)
  | .tEor rs rd => some (.eor, lo rd, readReg s (lo rd), ⟨readReg s (lo rs), s.cpsr.c⟩)
  | .tAdc rs rd => some (.adc, lo rd, readReg s (lo rd), ⟨readReg s (lo rs), s.cpsr.c⟩)
  | .tSbc rs rd => some (.sbc, lo rd, readReg s (lo rd), ⟨readReg s (lo rs), s.cpsr.c⟩)
  | .tTst rs rd => some (.tst, lo rd, readReg s (lo rd), ⟨readReg s (lo rs), s.cpsr.c⟩)
  | .tCmpReg rs rd => some (.cmp, lo rd, readReg s (lo rd), ⟨readReg s (lo rs), s.cpsr.c⟩)
  | .tCmn rs rd => some (.cmn, lo rd, readReg s (lo rd), ⟨readReg s (lo rs), s.cpsr.c⟩)
  | .tOrr rs rd => some (.orr, lo rd, readReg s (lo rd), ⟨readReg s (lo rs), s.cpsr.c⟩)
  | .tBic rs rd => some (.bic, lo rd, readReg s (lo rd), ⟨readReg s (lo rs), s.cpsr.c⟩)
  | .tLslReg rs rd => some (.mov, lo rd, 0, shiftReg .lsl (readReg s (lo rd)) ((readReg s (lo rs)).setWidth 8) s.cpsr.c)
  | .tLsrReg rs rd => some (.mov, lo rd, 0, shiftReg .lsr (readReg s (lo rd)) ((readReg s (lo rs)).setWidth 8) s.cpsr.c)
  | .tAsrReg rs rd => some (.mov, lo rd, 0, shiftReg .asr (readReg s (lo rd)) ((readReg s (lo rs)).setWidth 8) s.cpsr.c)
  | .tRorReg rs rd => some (.mov, lo rd, 0, shiftReg .ror (readReg s (lo rd)) ((readReg s (lo rs)).setWidth 8) s.cpsr.c)
  | .tNeg rs rd => some (.sub, lo rd, 0, ⟨readReg s (lo rs), s.cpsr.c⟩)
  | .tMvn rs rd => some (.mvn, lo rd, 0, ⟨readReg s (lo rs), s.cpsr.c⟩)
  | .tCmpHd hd rs => some (.cmp, hi hd, readReg s (hi hd), ⟨readReg s rs, s.cpsr.c⟩)
  | .tCmpHs rd hs => some (.cmp, lo rd, readReg s (lo rd), ⟨readReg s (hi hs), s.cpsr.c⟩)
  | _ => none

/-- The ARM instruction a Thumb instruction of formats 1 to 4, 12 (SP) or 13 behaves as, cond = AL (47_thumb_alu R340 to R367,
48_thumb_load_store R420, R422, R423). -/
def armEquivalent : Instr → Option Instr
  | .tLslImm imm rs rd => some (.movShImm .al true (lo rd) ⟨imm, .lsl, lo rs⟩)
  | .tLsrImm imm rs rd => some (.movShImm .al true (lo rd) ⟨imm, .lsr, lo rs⟩)
  | .tAsrImm imm rs rd => some (.movShImm .al true (lo rd) ⟨imm, .asr, lo rs⟩)
  | .tAddReg rn rs rd => some (.addShImm .al true (lo rs) (lo rd) ⟨0, .lsl, lo rn⟩)
  | .tSubReg rn rs rd => some (.subShImm .al true (lo rs) (lo rd) ⟨0, .lsl, lo rn⟩)
  | .tAddImm3 imm rs rd => some (.addImm .al true (lo rs) (lo rd) ⟨0, imm.setWidth 8⟩)
  | .tSubImm3 imm rs rd => some (.subImm .al true (lo rs) (lo rd) ⟨0, imm.setWidth 8⟩)
  | .tMovImm rd imm => some (.movImm .al true (lo rd) ⟨0, imm⟩)
  | .tCmpImm rd imm => some (.cmpImm .al (lo rd) ⟨0, imm⟩)
  | .tAddImm8 rd imm => some (.addImm .al true (lo rd) (lo rd) ⟨0, imm⟩)
  | .tSubImm8 rd imm => some (.subImm .al true (lo rd) (lo rd) ⟨0, imm⟩)
  | .tAnd rs rd => some (.andShImm .al true (lo rd) (lo rd) ⟨0, .lsl, lo rs⟩)
  | .tEor rs rd => some (.eorShImm .al true (lo rd) (lo rd) ⟨0, .lsl, lo rs⟩)
  | .tAdc rs rd => some (.adcShImm .al true (lo rd) (lo rd) ⟨0, .lsl, lo rs⟩)
  | .tSbc rs rd => some (.sbcShImm .al true (lo rd) (lo rd) ⟨0, .lsl, lo rs⟩)
  | .tOrr rs rd => some (.orrShImm .al true (lo rd) (lo rd) ⟨0, .lsl, lo rs⟩)
  | .tBic rs rd => some (.bicShImm .al true (lo rd) (lo rd) ⟨0, .lsl, lo rs⟩)
  | .tTst rs rd => some (.tstShImm .al (lo rd) ⟨0, .lsl, lo rs⟩)
  | .tCmpReg rs rd => some (.cmpShImm .al (lo rd) ⟨0, .lsl, lo rs⟩)
  | .tCmn rs rd => some (.cmnShImm .al (lo rd) ⟨0, .lsl, lo rs⟩)
  | .tLslReg rs rd => some (.movShReg .al true (lo rd) ⟨lo rs, .lsl, lo rd⟩)
  | .tLsrReg rs rd => some (.movShReg .al true (lo rd) ⟨lo rs, .lsr, lo rd⟩)
  | .tAsrReg rs rd => some (.movShReg .al true (lo rd) ⟨lo rs, .asr, lo rd⟩)
  | .tRorReg rs rd => some (.movShReg .al true (lo rd) ⟨lo rs, .ror, lo rd⟩)
  | .tNeg rs rd => some (.rsbImm .al true (lo rs) (lo rd) ⟨0, 0⟩)
  | .tMul rs rd => some (.mul .al true (lo rd) (lo rd) (lo rs))
  | .tMvn rs rd => some (.mvnShImm .al true (lo rd) ⟨0, .lsl, lo rs⟩)
  | .tAddSp rd imm => some (.addImm .al false 13 (lo rd) ⟨15, imm⟩)
  | .tAddSpImm imm => some (.addImm .al false 13 13 ⟨15, imm.setWidth 8⟩)
  | .tSubSpImm imm => some (.subImm .al false 13 13 ⟨15, imm.setWidth 8⟩)
  | _ => none

/-! ## Multiplies (43_arm_multiply) -/

/-- A 32-bit multiply: S, Rd, the result (R251, R252, 47_thumb_alu R365). -/
def mulOf (s : State) : Instr → Option (Bool × Reg × Word)
  | .mul _ sf rd rs rm => some (sf, rd, BitVec.ofNat 32 ((readReg s rm).toNat * (readReg s rs).toNat))
  | .mla _ sf rd rn rs rm =>
    some (sf, rd, BitVec.ofNat 32 ((readReg s rm).toNat * (readReg s rs).toNat + (readReg s rn).toNat))
  | .tMul rs rd => some (true, lo rd, BitVec.ofNat 32 ((readReg s (lo rd)).toNat * (readReg s (lo rs)).toNat))
  | _ => none

/-- A long multiply: S, RdHi, RdLo, the 64-bit result (R253 to R256). -/
def mulLongOf (s : State) : Instr → Option (Bool × Reg × Reg × BitVec 64)
  | .umull _ sf hi lo rs rm => some (sf, hi, lo, BitVec.ofNat 64 ((readReg s rm).toNat * (readReg s rs).toNat))
  | .umlal _ sf hi lo rs rm =>
    some (sf, hi, lo, BitVec.ofNat 64 ((readReg s rm).toNat * (readReg s rs).toNat
      + ((readReg s hi).toNat * 2 ^ 32 + (readReg s lo).toNat)))
  | .smull _ sf hi lo rs rm => some (sf, hi, lo, BitVec.ofInt 64 ((readReg s rm).toInt * (readReg s rs).toInt))
  | .smlal _ sf hi lo rs rm =>
    some (sf, hi, lo, BitVec.ofInt 64 ((readReg s rm).toInt * (readReg s rs).toInt
      + ((readReg s hi).toInt * 2 ^ 32 + (readReg s lo).toNat)))
  | _ => none

/-! ## Transfers (44_arm_load_store, 45_arm_block_swap, 48_thumb_load_store) -/

/-- A single transfer: what moves, the privilege of the access, the base and the data register, the address and the new base. -/
structure Xfer where
  kind : LoadKind
  priv : Bool
  rn : Reg
  rd : Reg
  loc : Address
  deriving DecidableEq, Repr

/-- A Thumb transfer: the mode's privilege, no write-back (48_thumb_load_store R415). -/
def thumbXfer (s : State) (k : LoadKind) (rd : LoReg) (a : Word) : Xfer :=
  { kind := k, priv := s.cpsr.mode.privileged, rn := 0, rd := lo rd, loc := { addr := a, wb := none } }

/-- The single loads. -/
def loadOf (s : State) : Instr → Option Xfer
  | .ldrhReg _ p u w rn rd rm => some ⟨.half, s.cpsr.mode.privileged, rn, rd, address p u w (readReg s rn) (readReg s rm)⟩
  | .ldrhImm _ p u w rn rd imm => some ⟨.half, s.cpsr.mode.privileged, rn, rd, address p u w (readReg s rn) (imm.setWidth 32)⟩
  | .ldrsbReg _ p u w rn rd rm => some ⟨.signedByte, s.cpsr.mode.privileged, rn, rd, address p u w (readReg s rn) (readReg s rm)⟩
  | .ldrsbImm _ p u w rn rd imm => some ⟨.signedByte, s.cpsr.mode.privileged, rn, rd, address p u w (readReg s rn) (imm.setWidth 32)⟩
  | .ldrshReg _ p u w rn rd rm => some ⟨.signedHalf, s.cpsr.mode.privileged, rn, rd, address p u w (readReg s rn) (readReg s rm)⟩
  | .ldrshImm _ p u w rn rd imm => some ⟨.signedHalf, s.cpsr.mode.privileged, rn, rd, address p u w (readReg s rn) (imm.setWidth 32)⟩
  | .ldrImmPre _ u w rn rd imm => some ⟨.word, s.cpsr.mode.privileged, rn, rd, address true u w (readReg s rn) (imm.setWidth 32)⟩
  | .ldrImmPost _ u rn rd imm => some ⟨.word, s.cpsr.mode.privileged, rn, rd, address false u true (readReg s rn) (imm.setWidth 32)⟩
  | .ldrtImm _ u rn rd imm => some ⟨.word, false, rn, rd, address false u true (readReg s rn) (imm.setWidth 32)⟩
  | .ldrRegPre _ u w rn rd o => some ⟨.word, s.cpsr.mode.privileged, rn, rd, address true u w (readReg s rn) (shiftedOffset s o)⟩
  | .ldrRegPost _ u rn rd o => some ⟨.word, s.cpsr.mode.privileged, rn, rd, address false u true (readReg s rn) (shiftedOffset s o)⟩
  | .ldrtReg _ u rn rd o => some ⟨.word, false, rn, rd, address false u true (readReg s rn) (shiftedOffset s o)⟩
  | .ldrbImmPre _ u w rn rd imm => some ⟨.byte, s.cpsr.mode.privileged, rn, rd, address true u w (readReg s rn) (imm.setWidth 32)⟩
  | .ldrbImmPost _ u rn rd imm => some ⟨.byte, s.cpsr.mode.privileged, rn, rd, address false u true (readReg s rn) (imm.setWidth 32)⟩
  | .ldrbtImm _ u rn rd imm => some ⟨.byte, false, rn, rd, address false u true (readReg s rn) (imm.setWidth 32)⟩
  | .ldrbRegPre _ u w rn rd o => some ⟨.byte, s.cpsr.mode.privileged, rn, rd, address true u w (readReg s rn) (shiftedOffset s o)⟩
  | .ldrbRegPost _ u rn rd o => some ⟨.byte, s.cpsr.mode.privileged, rn, rd, address false u true (readReg s rn) (shiftedOffset s o)⟩
  | .ldrbtReg _ u rn rd o => some ⟨.byte, false, rn, rd, address false u true (readReg s rn) (shiftedOffset s o)⟩
  | .tLdrPc rd imm => some (thumbXfer s .word rd (((s.pc + 4) &&& 0xFFFFFFFC) + ((imm.setWidth 32) <<< 2)))
  | .tLdrReg ro rb rd => some (thumbXfer s .word rd (readReg s (lo rb) + readReg s (lo ro)))
  | .tLdrbReg ro rb rd => some (thumbXfer s .byte rd (readReg s (lo rb) + readReg s (lo ro)))
  | .tLdrhReg ro rb rd => some (thumbXfer s .half rd (readReg s (lo rb) + readReg s (lo ro)))
  | .tLdsbReg ro rb rd => some (thumbXfer s .signedByte rd (readReg s (lo rb) + readReg s (lo ro)))
  | .tLdshReg ro rb rd => some (thumbXfer s .signedHalf rd (readReg s (lo rb) + readReg s (lo ro)))
  | .tLdrImm imm rb rd => some (thumbXfer s .word rd (readReg s (lo rb) + (imm.setWidth 32) <<< 2))
  | .tLdrbImm imm rb rd => some (thumbXfer s .byte rd (readReg s (lo rb) + (imm.setWidth 32) <<< 0))
  | .tLdrhImm imm rb rd => some (thumbXfer s .half rd (readReg s (lo rb) + (imm.setWidth 32) <<< 1))
  | .tLdrSp rd imm => some (thumbXfer s .word rd (readReg s 13 + (imm.setWidth 32) <<< 2))
  | _ => none

/-- The single stores; `kind` is word, half or byte. -/
def storeOf (s : State) : Instr → Option Xfer
  | .strhReg _ p u w rn rd rm => some ⟨.half, s.cpsr.mode.privileged, rn, rd, address p u w (readReg s rn) (readReg s rm)⟩
  | .strhImm _ p u w rn rd imm => some ⟨.half, s.cpsr.mode.privileged, rn, rd, address p u w (readReg s rn) (imm.setWidth 32)⟩
  | .strImmPre _ u w rn rd imm => some ⟨.word, s.cpsr.mode.privileged, rn, rd, address true u w (readReg s rn) (imm.setWidth 32)⟩
  | .strImmPost _ u rn rd imm => some ⟨.word, s.cpsr.mode.privileged, rn, rd, address false u true (readReg s rn) (imm.setWidth 32)⟩
  | .strtImm _ u rn rd imm => some ⟨.word, false, rn, rd, address false u true (readReg s rn) (imm.setWidth 32)⟩
  | .strRegPre _ u w rn rd o => some ⟨.word, s.cpsr.mode.privileged, rn, rd, address true u w (readReg s rn) (shiftedOffset s o)⟩
  | .strRegPost _ u rn rd o => some ⟨.word, s.cpsr.mode.privileged, rn, rd, address false u true (readReg s rn) (shiftedOffset s o)⟩
  | .strtReg _ u rn rd o => some ⟨.word, false, rn, rd, address false u true (readReg s rn) (shiftedOffset s o)⟩
  | .strbImmPre _ u w rn rd imm => some ⟨.byte, s.cpsr.mode.privileged, rn, rd, address true u w (readReg s rn) (imm.setWidth 32)⟩
  | .strbImmPost _ u rn rd imm => some ⟨.byte, s.cpsr.mode.privileged, rn, rd, address false u true (readReg s rn) (imm.setWidth 32)⟩
  | .strbtImm _ u rn rd imm => some ⟨.byte, false, rn, rd, address false u true (readReg s rn) (imm.setWidth 32)⟩
  | .strbRegPre _ u w rn rd o => some ⟨.byte, s.cpsr.mode.privileged, rn, rd, address true u w (readReg s rn) (shiftedOffset s o)⟩
  | .strbRegPost _ u rn rd o => some ⟨.byte, s.cpsr.mode.privileged, rn, rd, address false u true (readReg s rn) (shiftedOffset s o)⟩
  | .strbtReg _ u rn rd o => some ⟨.byte, false, rn, rd, address false u true (readReg s rn) (shiftedOffset s o)⟩
  | .tStrReg ro rb rd => some (thumbXfer s .word rd (readReg s (lo rb) + readReg s (lo ro)))
  | .tStrbReg ro rb rd => some (thumbXfer s .byte rd (readReg s (lo rb) + readReg s (lo ro)))
  | .tStrhReg ro rb rd => some (thumbXfer s .half rd (readReg s (lo rb) + readReg s (lo ro)))
  | .tStrImm imm rb rd => some (thumbXfer s .word rd (readReg s (lo rb) + (imm.setWidth 32) <<< 2))
  | .tStrbImm imm rb rd => some (thumbXfer s .byte rd (readReg s (lo rb) + (imm.setWidth 32) <<< 0))
  | .tStrhImm imm rb rd => some (thumbXfer s .half rd (readReg s (lo rb) + (imm.setWidth 32) <<< 1))
  | .tStrSp rd imm => some (thumbXfer s .word rd (readReg s 13 + (imm.setWidth 32) <<< 2))
  | _ => none

/-- The value a load writes, from the bytes it reads as an unsigned number (R267, R269, R281, R283, R284). -/
def loadedValue (k : LoadKind) (v : Word) : Word :=
  match k with
  | .word => v
  | .half => BitVec.ofNat 32 (v.toNat % 2 ^ 16)
  | .byte => BitVec.ofNat 32 (v.toNat % 2 ^ 8)
  | .signedHalf => BitVec.ofInt 32 (Int.bmod v.toNat (2 ^ 16))
  | .signedByte => BitVec.ofInt 32 (Int.bmod v.toNat (2 ^ 8))

/-- A data access as the bus sees it (20_memory R97 to R102); `dout` is what a write drives. -/
def dataAccess (s : State) (a : Word) (size : Size) (priv write locked : Bool) (dout : Option Word) : Access :=
  { addr := a, size := size, kind := .data, priv := priv, write := write, locked := locked, thumb := s.cpsr.t,
    mode := s.cpsr.mode, dout := dout }

/-- The memory system takes the access: not aborted (20_memory R106) and aligned (R86). -/
def accessible (s : State) (a : Word) (size : Size) (priv write : Bool) : Bool :=
  !s.env.aborts a size .data priv write && !misaligned a size

/-- The address is ordinary memory: neither ROM nor a device (92_eei_decisions D4). -/
def isRam (s : State) (a : Word) : Bool := s.env.regionAt a == none

/-- Reading the address gives what memory holds: it is no device (D4). -/
def isMemory (s : State) (a : Word) : Bool := s.env.regionAt a != some .device

/-- A block transfer: the registers, lowest first, the mode whose bank they are of, the base, the first address, and the new base. -/
structure Block where
  regs : List Reg
  mode : Mode
  rn : Reg
  start : Word
  wb : Option Word
  deriving DecidableEq, Repr

/-- An ARM block transfer of the current bank (R301). -/
def armBlock (s : State) (p u w : Bool) (rn : Reg) (regs : List Reg) : Block :=
  { regs := regs, mode := s.cpsr.mode, rn := rn, start := blockStart p u (readReg s rn) regs.length,
    wb := if w then some (blockBase u (readReg s rn) regs.length) else none }

/-- A User-bank block transfer: the base of the current bank, no write-back (R304, R306). -/
def userBlock (s : State) (p u : Bool) (rn : Reg) (regs : List Reg) : Block :=
  { regs := regs, mode := .usr, rn := rn, start := blockStart p u (readReg s rn) regs.length, wb := none }

/-- An increment-after Thumb transfer with write-back (48_thumb_load_store R425 to R427). -/
def upBlock (s : State) (rn : Reg) (regs : List Reg) : Block :=
  { regs := regs, mode := s.cpsr.mode, rn := rn, start := readReg s rn,
    wb := some (readReg s rn + BitVec.ofNat 32 (4 * regs.length)) }

/-- The block loads (R302 to R304, R425, R427). -/
def blockLoadOf (s : State) : Instr → Option Block
  | .ldm _ p u w rn list => some (armBlock s p u w rn (regsOf list))
  | .ldmRet _ p u w rn list => some (armBlock s p u w rn (regsOf (1#1 ++ list)))
  | .ldmUser _ p u _ rn list => some (userBlock s p u rn (regsOf list))
  | .tPop r list => some (upBlock s 13 (regsOf list ++ (if r then [15] else [])))
  | .tLdmia rb list => some (upBlock s (lo rb) (regsOf list))
  | _ => none

/-- The block stores (R305, R306, R424, R426). -/
def blockStoreOf (s : State) : Instr → Option Block
  | .stm _ p u w rn list => some (armBlock s p u w rn (regsOf list))
  | .stmUser _ p u _ rn list => some (userBlock s p u rn (regsOf list))
  | .tPush r list =>
    let regs := regsOf list ++ (if r then [14] else [])
    let start := readReg s 13 - BitVec.ofNat 32 (4 * regs.length)
    some { regs := regs, mode := s.cpsr.mode, rn := 13, start := start, wb := some start }
  | .tStmia rb list => some (upBlock s (lo rb) (regsOf list))
  | _ => none

/-- Address `k` of a block (R301). -/
def Block.addr (b : Block) (k : Nat) : Word := b.start + BitVec.ofNat 32 (4 * k)

/-- Some word of the block is aborted. -/
def Block.aborts (s : State) (b : Block) (write : Bool) : Bool :=
  (List.range b.regs.length).any (fun k => s.env.aborts (b.addr k) .word .data s.cpsr.mode.privileged write)

/-- The block is aligned and does not wrap past the top of the address space (20_memory R87, 10_state R35). -/
def Block.fits (b : Block) : Bool := wordAligned b.start && decide (b.start.toNat + 4 * b.regs.length ≤ 2 ^ 32)

/-- The block runs past the top of the address space (10_state R35, R308). -/
def Block.wraps (b : Block) : Bool := decide (2 ^ 32 < b.start.toNat + 4 * b.regs.length)

/-- Every word of the block is aborted. -/
def Block.abortsAll (s : State) (b : Block) (write : Bool) : Bool :=
  (List.range b.regs.length).all (fun k => s.env.aborts (b.addr k) .word .data s.cpsr.mode.privileged write)

/-- LDM with ^ and without R15 (R304). -/
def isUserLoad : Instr → Bool
  | .ldmUser _ _ _ _ _ _ => true
  | _ => false

/-- Every word of the block passes a test. -/
def Block.all (b : Block) (f : Word → Bool) : Bool := (List.range b.regs.length).all (fun k => f (b.addr k))

/-- A User-bank form or a return needs a mode with a bank and an SPSR of its own (R303, R304, R306): neither User nor System. -/
def needsBank : Instr → Bool
  | .ldmRet _ _ _ _ _ _ => true
  | .ldmUser _ _ _ _ _ _ => true
  | .stmUser _ _ _ _ _ _ => true
  | _ => false

/-- The mode allows the form. -/
def bankOk (i : Instr) (s : State) : Bool := !needsBank i || (s.cpsr.mode != .usr && s.cpsr.mode != .sys)

/-- SWP and SWPB: the size, Rn, Rd, Rm (R310, R311). -/
def swapOf : Instr → Option (Size × Reg × Reg × Reg)
  | .swp _ rn rd rm => some (.word, rn, rd, rm)
  | .swpb _ rn rd rm => some (.byte, rn, rd, rm)
  | _ => none

/-- A coprocessor instruction and its CP# (46_arm_swi_coproc_undef R325 to R328, R331). -/
def coprocOf : Instr → Option (BitVec 4)
  | .stc _ _ _ _ _ _ _ cp _ => some cp
  | .ldc _ _ _ _ _ _ _ cp _ => some cp
  | .cdp _ _ _ _ cp _ _ => some cp
  | .mcr _ _ _ _ cp _ _ => some cp
  | .mrc _ _ _ _ cp _ _ => some cp
  | _ => none

/-- The instructions that take an exception as their effect, and which (46_arm_swi_coproc_undef R321, R324, R330, 49_thumb_branch
R443). -/
def trapOf : Instr → Option Exc
  | .swi _ _ => some .swi
  | .tSwi _ => some .swi
  | .undef _ _ _ => some .undefined
  | i => if (coprocOf i).isSome then some .undefined else none

/-- The condition and the offset of a Thumb conditional branch (49_thumb_branch R441). -/
def condBranchOf : Instr → Option (Cond × BitVec 8)
  | .tBeq off => some (.eq, off)
  | .tBne off => some (.ne, off)
  | .tBcs off => some (.cs, off)
  | .tBcc off => some (.cc, off)
  | .tBmi off => some (.mi, off)
  | .tBpl off => some (.pl, off)
  | .tBvs off => some (.vs, off)
  | .tBvc off => some (.vc, off)
  | .tBhi off => some (.hi, off)
  | .tBls off => some (.ls, off)
  | .tBge off => some (.ge, off)
  | .tBlt off => some (.lt, off)
  | .tBgt off => some (.gt, off)
  | .tBle off => some (.le, off)
  | _ => none

/-- Format 5 ADD and MOV: the destination and the value (47_thumb_alu R376, R378). -/
def highOf (s : State) : Instr → Option (Reg × Word)
  | .tAddHd hd rs => some (hi hd, readReg s (hi hd) + readReg s rs)
  | .tAddHs rd hs => some (lo rd, readReg s (lo rd) + readReg s (hi hs))
  | .tMovHd hd rs => some (hi hd, readReg s rs)
  | .tMovHs rd hs => some (lo rd, readReg s (hi hs))
  | _ => none

/-- Thumb formats 12 and 13: the destination and the address computed (48_thumb_load_store R420 to R423). -/
def thumbAddressOf (s : State) : Instr → Option (Reg × Word)
  | .tAddPc rd imm => some (lo rd, ((s.pc + 4) &&& 0xFFFFFFFC) + BitVec.ofNat 32 (4 * imm.toNat))
  | .tAddSp rd imm => some (lo rd, readReg s 13 + BitVec.ofNat 32 (4 * imm.toNat))
  | .tAddSpImm imm => some (13, readReg s 13 + BitVec.ofNat 32 (4 * imm.toNat))
  | .tSubSpImm imm => some (13, readReg s 13 - BitVec.ofNat 32 (4 * imm.toNat))
  | _ => none

/-- BX in either state: the value whose bit 0 is the new T (40_arm_branch R194, 47_thumb_alu R379). -/
def bxOf (s : State) : Instr → Option Word
  | .bx _ rn => some (readReg s rn)
  | .tBx rs => some (readReg s rs)
  | _ => none

/-- The seven mode values of the table of 10_state R21; every other value is illegal. -/
def legalMode (m : BitVec 5) : Bool :=
  m == 0b10000#5 || m == 0b10001#5 || m == 0b10010#5 || m == 0b10011#5 || m == 0b10111#5 || m == 0b11011#5 || m == 0b11111#5

/-- An SPSR that cannot be restored: its mode bits are no mode (R21, 60_exceptions R483). -/
def badReturn (s : State) : Bool :=
  match s.spsrs.get s.cpsr.mode with
  | some w => !legalMode (w.extractLsb' 0 5)
  | none => false

/-- MSR: which PSR, the mask and the operand (42_arm_psr_transfer R242, R243). -/
def msrOf (s : State) : Instr → Option (Bool × BitVec 4 × Word)
  | .msrReg _ spsr mask rm => some (spsr, mask, readReg s rm)
  | .msrImm _ spsr mask o => some (spsr, mask, rotValue o)
  | _ => none

/-- The Thumb halfwords 30_encoding R153 lists as unallocated. -/
def unallocatedThumb (h : Half) : Bool :=
  -- every 1011 halfword that is not format 13 (1011 0000) or format 14 (1011 x10x)
  (h.extractLsb' 12 4 == 0b1011#4 && h.extractLsb' 8 4 != 0b0000#4 && h.extractLsb' 9 2 != 0b10#2)
  -- format 16 with Cond = 1110
  || h.extractLsb' 8 8 == 0b11011110#8
  || h.extractLsb' 11 5 == 0b11101#5
  -- format 5: ADD, CMP or MOV with H1 = H2 = 0, and BX with H1 = 1
  || (h.extractLsb' 10 6 == 0b010001#6 && h.extractLsb' 8 2 != 0b11#2 && h.extractLsb' 6 2 == 0b00#2)
  || (h.extractLsb' 8 8 == 0b01000111#8 && h.getLsbD 7)

/-- A Thumb BX whose Rd field is not 000 (47_thumb_alu R379). -/
def bxNonZero (h : Half) : Bool := h.extractLsb' 7 9 == 0b010001110#9 && h.extractLsb' 0 3 != 0#3

end Sys2Proof.Claims
end

