-- ==== Sys2Proof/Claims/Frame.lean ====
section
/-! DEFINITION. What an instruction may change, for the frame statements: its destination registers, the flags the spec names
for it, the status registers it writes, and the bytes it stores to. -/

namespace Sys2Proof.Claims

open Sys2Proof.Machine

/-! ## Registers -/

/-- The base, where the form writes it back. -/
def baseIf (wb : Bool) (rn : Reg) : List Reg := if wb then [rn] else []

/-- The registers an instruction's rule gives a new value to, as numbers of the current mode's bank: the destination, the base
where the form writes it back, the link register of a BL, SP where PUSH and POP move it. R15 in the list is the pc. -/
def destRegs : Instr → List Reg
  | .bl _ _ => [14]
  | .andImm _ _ _ rd _ => [rd]
  | .andShImm _ _ _ rd _ => [rd]
  | .andShReg _ _ _ rd _ => [rd]
  | .eorImm _ _ _ rd _ => [rd]
  | .eorShImm _ _ _ rd _ => [rd]
  | .eorShReg _ _ _ rd _ => [rd]
  | .subImm _ _ _ rd _ => [rd]
  | .subShImm _ _ _ rd _ => [rd]
  | .subShReg _ _ _ rd _ => [rd]
  | .rsbImm _ _ _ rd _ => [rd]
  | .rsbShImm _ _ _ rd _ => [rd]
  | .rsbShReg _ _ _ rd _ => [rd]
  | .addImm _ _ _ rd _ => [rd]
  | .addShImm _ _ _ rd _ => [rd]
  | .addShReg _ _ _ rd _ => [rd]
  | .adcImm _ _ _ rd _ => [rd]
  | .adcShImm _ _ _ rd _ => [rd]
  | .adcShReg _ _ _ rd _ => [rd]
  | .sbcImm _ _ _ rd _ => [rd]
  | .sbcShImm _ _ _ rd _ => [rd]
  | .sbcShReg _ _ _ rd _ => [rd]
  | .rscImm _ _ _ rd _ => [rd]
  | .rscShImm _ _ _ rd _ => [rd]
  | .rscShReg _ _ _ rd _ => [rd]
  | .orrImm _ _ _ rd _ => [rd]
  | .orrShImm _ _ _ rd _ => [rd]
  | .orrShReg _ _ _ rd _ => [rd]
  | .movImm _ _ rd _ => [rd]
  | .movShImm _ _ rd _ => [rd]
  | .movShReg _ _ rd _ => [rd]
  | .bicImm _ _ _ rd _ => [rd]
  | .bicShImm _ _ _ rd _ => [rd]
  | .bicShReg _ _ _ rd _ => [rd]
  | .mvnImm _ _ rd _ => [rd]
  | .mvnShImm _ _ rd _ => [rd]
  | .mvnShReg _ _ rd _ => [rd]
  | .mrs _ _ rd => [rd]
  | .mul _ _ rd _ _ => [rd]
  | .mla _ _ rd _ _ _ => [rd]
  | .umull _ _ hi lo _ _ => [hi, lo]
  | .umlal _ _ hi lo _ _ => [hi, lo]
  | .smull _ _ hi lo _ _ => [hi, lo]
  | .smlal _ _ hi lo _ _ => [hi, lo]
  | .swp _ _ rd _ => [rd]
  | .swpb _ _ rd _ => [rd]
  | .strhReg _ p _ w rn _ _ => baseIf (!p || w) rn
  | .strhImm _ p _ w rn _ _ => baseIf (!p || w) rn
  | .ldrhReg _ p _ w rn rd _ => rd :: baseIf (!p || w) rn
  | .ldrhImm _ p _ w rn rd _ => rd :: baseIf (!p || w) rn
  | .ldrsbReg _ p _ w rn rd _ => rd :: baseIf (!p || w) rn
  | .ldrsbImm _ p _ w rn rd _ => rd :: baseIf (!p || w) rn
  | .ldrshReg _ p _ w rn rd _ => rd :: baseIf (!p || w) rn
  | .ldrshImm _ p _ w rn rd _ => rd :: baseIf (!p || w) rn
  | .strImmPre _ _ w rn _ _ => baseIf w rn
  | .strImmPost _ _ rn _ _ => baseIf true rn
  | .strtImm _ _ rn _ _ => baseIf true rn
  | .strRegPre _ _ w rn _ _ => baseIf w rn
  | .strRegPost _ _ rn _ _ => baseIf true rn
  | .strtReg _ _ rn _ _ => baseIf true rn
  | .ldrImmPre _ _ w rn rd _ => rd :: baseIf w rn
  | .ldrImmPost _ _ rn rd _ => rd :: baseIf true rn
  | .ldrtImm _ _ rn rd _ => rd :: baseIf true rn
  | .ldrRegPre _ _ w rn rd _ => rd :: baseIf w rn
  | .ldrRegPost _ _ rn rd _ => rd :: baseIf true rn
  | .ldrtReg _ _ rn rd _ => rd :: baseIf true rn
  | .strbImmPre _ _ w rn _ _ => baseIf w rn
  | .strbImmPost _ _ rn _ _ => baseIf true rn
  | .strbtImm _ _ rn _ _ => baseIf true rn
  | .strbRegPre _ _ w rn _ _ => baseIf w rn
  | .strbRegPost _ _ rn _ _ => baseIf true rn
  | .strbtReg _ _ rn _ _ => baseIf true rn
  | .ldrbImmPre _ _ w rn rd _ => rd :: baseIf w rn
  | .ldrbImmPost _ _ rn rd _ => rd :: baseIf true rn
  | .ldrbtImm _ _ rn rd _ => rd :: baseIf true rn
  | .ldrbRegPre _ _ w rn rd _ => rd :: baseIf w rn
  | .ldrbRegPost _ _ rn rd _ => rd :: baseIf true rn
  | .ldrbtReg _ _ rn rd _ => rd :: baseIf true rn
  | .ldm _ _ _ w rn list => regsOf list ++ baseIf w rn
  | .ldmRet _ _ _ w rn list => regsOf (1#1 ++ list) ++ baseIf w rn
  | .stm _ _ _ w rn _ => baseIf w rn
  | .tLslImm _ _ rd => [lo rd]
  | .tLsrImm _ _ rd => [lo rd]
  | .tAsrImm _ _ rd => [lo rd]
  | .tAddReg _ _ rd => [lo rd]
  | .tSubReg _ _ rd => [lo rd]
  | .tAddImm3 _ _ rd => [lo rd]
  | .tSubImm3 _ _ rd => [lo rd]
  | .tMovImm rd _ => [lo rd]
  | .tAddImm8 rd _ => [lo rd]
  | .tSubImm8 rd _ => [lo rd]
  | .tAnd _ rd => [lo rd]
  | .tEor _ rd => [lo rd]
  | .tLslReg _ rd => [lo rd]
  | .tLsrReg _ rd => [lo rd]
  | .tAsrReg _ rd => [lo rd]
  | .tAdc _ rd => [lo rd]
  | .tSbc _ rd => [lo rd]
  | .tRorReg _ rd => [lo rd]
  | .tNeg _ rd => [lo rd]
  | .tOrr _ rd => [lo rd]
  | .tMul _ rd => [lo rd]
  | .tBic _ rd => [lo rd]
  | .tMvn _ rd => [lo rd]
  | .tAddHd hd _ => [hi hd]
  | .tAddHs rd _ => [lo rd]
  | .tMovHd hd _ => [hi hd]
  | .tMovHs rd _ => [lo rd]
  | .tLdrPc rd _ => [lo rd]
  | .tLdrReg _ _ rd => [lo rd]
  | .tLdrbReg _ _ rd => [lo rd]
  | .tLdrhReg _ _ rd => [lo rd]
  | .tLdsbReg _ _ rd => [lo rd]
  | .tLdshReg _ _ rd => [lo rd]
  | .tLdrImm _ _ rd => [lo rd]
  | .tLdrbImm _ _ rd => [lo rd]
  | .tLdrhImm _ _ rd => [lo rd]
  | .tLdrSp rd _ => [lo rd]
  | .tAddPc rd _ => [lo rd]
  | .tAddSp rd _ => [lo rd]
  | .tAddSpImm _ => [13]
  | .tSubSpImm _ => [13]
  | .tPush _ _ => [13]
  | .tPop _ list => regsOf list ++ [13]
  | .tStmia rb _ => [lo rb]
  | .tLdmia rb list => regsOf list ++ [lo rb]
  | .tBlHi _ => [14]
  | .tBlLo _ => [14]
  | _ => []

/-- The User-bank registers an LDM with ^ and without R15 loads (R304). -/
def userDests : Instr → List Reg
  | .ldmUser _ _ _ _ _ list => regsOf list
  | _ => []

/-- The instruction may give this register a new value in this mode, by its own effect or by the exception its effect is. -/
def mayWrite (i : Instr) (m : Mode) (p : Phys) : Bool :=
  (destRegs i).any (fun r => bank m r == some p) || (userDests i).any (fun r => bank .usr r == some p)
    || (match trapOf i with | some e => lrOf e.mode == p | none => false)

/-- The instruction makes data accesses, so a Data Abort may be taken (20_memory R74). -/
def accesses (i : Instr) (s : State) : Bool :=
  (loadOf s i).isSome || (storeOf s i).isSome || (blockLoadOf s i).isSome || (blockStoreOf s i).isSome || (swapOf i).isSome

/-- `t` is what a Data Abort taken by the instruction at `s.pc` leaves in the exception's registers (60_exceptions R468, R469, R474). -/
def TookDataAbort (s t : State) : Prop :=
  t.regs.r14Abt = s.pc + 8 ∧ t.spsrs.abt = s.cpsr.toWord ∧ t.pc = 0x00000010 ∧
  t.cpsr = { s.cpsr with mode := .abt, t := false, i := true }

/-! ## Flags and the status registers -/

/-- Which flags an instruction's rule writes. -/
structure FlagSet where
  n : Bool
  z : Bool
  c : Bool
  v : Bool
  deriving DecidableEq, Repr

/-- No flag, N and Z, N Z and C, all four. -/
def noFlags : FlagSet := { n := false, z := false, c := false, v := false }

/-- N and Z. -/
def flagsNZ : FlagSet := { n := true, z := true, c := false, v := false }

/-- N, Z and C. -/
def flagsNZC : FlagSet := { n := true, z := true, c := true, v := false }

/-- All four. -/
def flagsNZCV : FlagSet := { n := true, z := true, c := true, v := true }

/-- A logical operation with S = 1 whose operand keeps C (rotate = 0, LSL #0) or gives the shifter's carry-out (R202, R203). -/
def logicalFlags (keepsC : Bool) : FlagSet := if keepsC then flagsNZ else flagsNZC

/-- LSL #0: the operand is Rm and the carry-out is C (R203). -/
def plainShift (o : ShImm) : Bool := o.amount == 0 && o.type == .lsl

/-- With S = 1; with Rd = 15 it is the return, which replaces the whole CPSR (R207). -/
def dpFlagSet (sf : Bool) (rd : Reg) (f : FlagSet) : FlagSet := if sf then (if rd = 15 then flagsNZCV else f) else noFlags

/-- The flags the spec names for an instruction (10_state R37; 41 R208 to R224; 43; 47). -/
def flagsWritten : Instr → FlagSet
  | .andImm _ sf _ rd o => dpFlagSet sf rd (logicalFlags (o.rotate == 0))
  | .andShImm _ sf _ rd o => dpFlagSet sf rd (logicalFlags (plainShift o))
  | .andShReg _ sf _ rd _ => dpFlagSet sf rd flagsNZC
  | .eorImm _ sf _ rd o => dpFlagSet sf rd (logicalFlags (o.rotate == 0))
  | .eorShImm _ sf _ rd o => dpFlagSet sf rd (logicalFlags (plainShift o))
  | .eorShReg _ sf _ rd _ => dpFlagSet sf rd flagsNZC
  | .subImm _ sf _ rd _ => dpFlagSet sf rd flagsNZCV
  | .subShImm _ sf _ rd _ => dpFlagSet sf rd flagsNZCV
  | .subShReg _ sf _ rd _ => dpFlagSet sf rd flagsNZCV
  | .rsbImm _ sf _ rd _ => dpFlagSet sf rd flagsNZCV
  | .rsbShImm _ sf _ rd _ => dpFlagSet sf rd flagsNZCV
  | .rsbShReg _ sf _ rd _ => dpFlagSet sf rd flagsNZCV
  | .addImm _ sf _ rd _ => dpFlagSet sf rd flagsNZCV
  | .addShImm _ sf _ rd _ => dpFlagSet sf rd flagsNZCV
  | .addShReg _ sf _ rd _ => dpFlagSet sf rd flagsNZCV
  | .adcImm _ sf _ rd _ => dpFlagSet sf rd flagsNZCV
  | .adcShImm _ sf _ rd _ => dpFlagSet sf rd flagsNZCV
  | .adcShReg _ sf _ rd _ => dpFlagSet sf rd flagsNZCV
  | .sbcImm _ sf _ rd _ => dpFlagSet sf rd flagsNZCV
  | .sbcShImm _ sf _ rd _ => dpFlagSet sf rd flagsNZCV
  | .sbcShReg _ sf _ rd _ => dpFlagSet sf rd flagsNZCV
  | .rscImm _ sf _ rd _ => dpFlagSet sf rd flagsNZCV
  | .rscShImm _ sf _ rd _ => dpFlagSet sf rd flagsNZCV
  | .rscShReg _ sf _ rd _ => dpFlagSet sf rd flagsNZCV
  | .tstImm _ _ o => logicalFlags (o.rotate == 0)
  | .tstShImm _ _ o => logicalFlags (plainShift o)
  | .tstShReg _ _ _ => flagsNZC
  | .teqImm _ _ o => logicalFlags (o.rotate == 0)
  | .teqShImm _ _ o => logicalFlags (plainShift o)
  | .teqShReg _ _ _ => flagsNZC
  | .cmpImm _ _ _ => flagsNZCV
  | .cmpShImm _ _ _ => flagsNZCV
  | .cmpShReg _ _ _ => flagsNZCV
  | .cmnImm _ _ _ => flagsNZCV
  | .cmnShImm _ _ _ => flagsNZCV
  | .cmnShReg _ _ _ => flagsNZCV
  | .orrImm _ sf _ rd o => dpFlagSet sf rd (logicalFlags (o.rotate == 0))
  | .orrShImm _ sf _ rd o => dpFlagSet sf rd (logicalFlags (plainShift o))
  | .orrShReg _ sf _ rd _ => dpFlagSet sf rd flagsNZC
  | .movImm _ sf rd o => dpFlagSet sf rd (logicalFlags (o.rotate == 0))
  | .movShImm _ sf rd o => dpFlagSet sf rd (logicalFlags (plainShift o))
  | .movShReg _ sf rd _ => dpFlagSet sf rd flagsNZC
  | .bicImm _ sf _ rd o => dpFlagSet sf rd (logicalFlags (o.rotate == 0))
  | .bicShImm _ sf _ rd o => dpFlagSet sf rd (logicalFlags (plainShift o))
  | .bicShReg _ sf _ rd _ => dpFlagSet sf rd flagsNZC
  | .mvnImm _ sf rd o => dpFlagSet sf rd (logicalFlags (o.rotate == 0))
  | .mvnShImm _ sf rd o => dpFlagSet sf rd (logicalFlags (plainShift o))
  | .mvnShReg _ sf rd _ => dpFlagSet sf rd flagsNZC
  | .msrReg _ spsr mask _ => if !spsr && mask.getLsbD 3 then flagsNZCV else noFlags
  | .msrImm _ spsr mask _ => if !spsr && mask.getLsbD 3 then flagsNZCV else noFlags
  | .mul _ sf _ _ _ => if sf then flagsNZC else noFlags
  | .mla _ sf _ _ _ _ => if sf then flagsNZC else noFlags
  | .umull _ sf _ _ _ _ => if sf then flagsNZCV else noFlags
  | .umlal _ sf _ _ _ _ => if sf then flagsNZCV else noFlags
  | .smull _ sf _ _ _ _ => if sf then flagsNZCV else noFlags
  | .smlal _ sf _ _ _ _ => if sf then flagsNZCV else noFlags
  | .ldmRet _ _ _ _ _ _ => flagsNZCV
  | .tLslImm imm _ _ => logicalFlags (imm == 0)
  | .tLsrImm _ _ _ => flagsNZC
  | .tAsrImm _ _ _ => flagsNZC
  | .tAddReg _ _ _ => flagsNZCV
  | .tSubReg _ _ _ => flagsNZCV
  | .tAddImm3 _ _ _ => flagsNZCV
  | .tSubImm3 _ _ _ => flagsNZCV
  | .tMovImm _ _ => flagsNZ
  | .tCmpImm _ _ => flagsNZCV
  | .tAddImm8 _ _ => flagsNZCV
  | .tSubImm8 _ _ => flagsNZCV
  | .tAnd _ _ => flagsNZ
  | .tEor _ _ => flagsNZ
  | .tLslReg _ _ => flagsNZC
  | .tLsrReg _ _ => flagsNZC
  | .tAsrReg _ _ => flagsNZC
  | .tAdc _ _ => flagsNZCV
  | .tSbc _ _ => flagsNZCV
  | .tRorReg _ _ => flagsNZC
  | .tTst _ _ => flagsNZ
  | .tNeg _ _ => flagsNZCV
  | .tCmpReg _ _ => flagsNZCV
  | .tCmn _ _ => flagsNZCV
  | .tOrr _ _ => flagsNZ
  | .tMul _ _ => flagsNZC
  | .tBic _ _ => flagsNZ
  | .tMvn _ _ => flagsNZ
  | .tCmpHd _ _ => flagsNZCV
  | .tCmpHs _ _ => flagsNZCV
  | _ => noFlags

/-- A data-processing instruction with S = 1 and Rd = R15, or an LDM with ^ and R15: a return from exception (60_exceptions R483). -/
def isReturn : Instr → Bool
  | .andImm _ sf _ rd _ => sf && rd == 15
  | .andShImm _ sf _ rd _ => sf && rd == 15
  | .andShReg _ sf _ rd _ => sf && rd == 15
  | .eorImm _ sf _ rd _ => sf && rd == 15
  | .eorShImm _ sf _ rd _ => sf && rd == 15
  | .eorShReg _ sf _ rd _ => sf && rd == 15
  | .subImm _ sf _ rd _ => sf && rd == 15
  | .subShImm _ sf _ rd _ => sf && rd == 15
  | .subShReg _ sf _ rd _ => sf && rd == 15
  | .rsbImm _ sf _ rd _ => sf && rd == 15
  | .rsbShImm _ sf _ rd _ => sf && rd == 15
  | .rsbShReg _ sf _ rd _ => sf && rd == 15
  | .addImm _ sf _ rd _ => sf && rd == 15
  | .addShImm _ sf _ rd _ => sf && rd == 15
  | .addShReg _ sf _ rd _ => sf && rd == 15
  | .adcImm _ sf _ rd _ => sf && rd == 15
  | .adcShImm _ sf _ rd _ => sf && rd == 15
  | .adcShReg _ sf _ rd _ => sf && rd == 15
  | .sbcImm _ sf _ rd _ => sf && rd == 15
  | .sbcShImm _ sf _ rd _ => sf && rd == 15
  | .sbcShReg _ sf _ rd _ => sf && rd == 15
  | .rscImm _ sf _ rd _ => sf && rd == 15
  | .rscShImm _ sf _ rd _ => sf && rd == 15
  | .rscShReg _ sf _ rd _ => sf && rd == 15
  | .orrImm _ sf _ rd _ => sf && rd == 15
  | .orrShImm _ sf _ rd _ => sf && rd == 15
  | .orrShReg _ sf _ rd _ => sf && rd == 15
  | .movImm _ sf rd _ => sf && rd == 15
  | .movShImm _ sf rd _ => sf && rd == 15
  | .movShReg _ sf rd _ => sf && rd == 15
  | .bicImm _ sf _ rd _ => sf && rd == 15
  | .bicShImm _ sf _ rd _ => sf && rd == 15
  | .bicShReg _ sf _ rd _ => sf && rd == 15
  | .mvnImm _ sf rd _ => sf && rd == 15
  | .mvnShImm _ sf rd _ => sf && rd == 15
  | .mvnShReg _ sf rd _ => sf && rd == 15
  | .ldmRet _ _ _ _ _ _ => true
  | _ => false

/-- LDRT, STRT, LDRBT and STRBT (44_arm_load_store R277). -/
def isTVariant : Instr → Bool
  | .ldrtImm _ _ _ _ _ => true
  | .ldrtReg _ _ _ _ _ => true
  | .ldrbtImm _ _ _ _ _ => true
  | .ldrbtReg _ _ _ _ _ => true
  | .strtImm _ _ _ _ _ => true
  | .strtReg _ _ _ _ _ => true
  | .strbtImm _ _ _ _ _ => true
  | .strbtReg _ _ _ _ _ => true
  | _ => false

/-- BX of either state. -/
def isBx : Instr → Bool
  | .bx _ _ => true
  | .tBx _ => true
  | _ => false

/-- MSR to the CPSR. -/
def isMsrCpsr : Instr → Bool
  | .msrReg _ spsr _ _ => !spsr
  | .msrImm _ spsr _ _ => !spsr
  | _ => false

/-- MSR to the SPSR. -/
def isMsrSpsr : Instr → Bool
  | .msrReg _ spsr _ _ => spsr
  | .msrImm _ spsr _ _ => spsr
  | _ => false

/-- Bits [27:0] of the CPSR: reserved, I, F, T and the mode. -/
def sameControl (p q : Psr) : Bool :=
  p.reserved == q.reserved && p.i == q.i && p.f == q.f && p.t == q.t && p.mode == q.mode

/-! ## Memory -/

/-- The instruction stores to memory. -/
def storesMem (i : Instr) (s : State) : Bool := (storeOf s i).isSome || (blockStoreOf s i).isSome || (swapOf i).isSome

/-- The address `a` is none of the `n` bytes from `start` on. -/
def outside (a : Nat) (start : Word) (n : Nat) : Bool := decide (a < start.toNat) || decide (start.toNat + n ≤ a)

end Sys2Proof.Claims
end

