-- ==== Sys2Proof/Claims/Restrictions.lean ====
section
/-! DEFINITION. The restrictions of the rules spelled out form by form from the spec's text, beside the machine's own restriction
functions (Machine/Restrict.lean), and which instructions have only the next instruction to go on to. -/

namespace Sys2Proof.Claims

open Sys2Proof.Machine

/-! ## Fields that break a rule -/

/-- R15 is one of these registers. -/
def usesR15 (l : List Reg) : Bool := decide ((15 : Reg) ∈ l)

/-- R274, R273, R269, R271: a single transfer whose Rd may be R15 only where `pcAllowed`; with write-back Rn is not R15 and not Rd; an
offset register is not R15, and not Rn in a post-indexed form. -/
def transferBreaks (pcAllowed wb post : Bool) (rn rd : Reg) (rm : Option Reg) : Bool :=
  (rd == 15 && !pcAllowed) || (wb && (rn == 15 || rd == rn)) || rm == some 15 || (post && rm == some rn)

/-- R285, R280: a halfword or signed transfer: as R274 with Rd never R15, and P = 0 with W = 1 is no form. -/
def halfBreaks (p w : Bool) (rn rd : Reg) (rm : Option Reg) : Bool :=
  (!p && w) || transferBreaks false (!p || w) (!p) rn rd rm

/-- R308: Rn is in the list. -/
def listed {n : Nat} (list : BitVec n) (rn : Reg) : Bool := list.getLsbD rn.toNat

/-- R308: a register in the list is lower than Rn. -/
def lowerListed {n : Nat} (list : BitVec n) (rn : Reg) : Bool := (List.range rn.toNat).any (fun k => list.getLsbD k)

/-- R308, R302, R303: an LDM of an empty list, with base R15, or with write-back and the base in the list. -/
def ldmBreaks {n : Nat} (w : Bool) (rn : Reg) (list : BitVec n) : Bool := list == 0 || rn == 15 || (w && listed list rn)

/-- R308, R305: an STM of an empty list, with base R15, or with write-back and the base in the list but not its lowest. -/
def stmBreaks {n : Nat} (w : Bool) (rn : Reg) (list : BitVec n) : Bool :=
  list == 0 || rn == 15 || (w && listed list rn && lowerListed list rn)

/-- The fields break a restriction of the instruction's rule: R194 (BX), R206 (a shift amount in a register), R241 and R242 (MRS, MSR),
R258 (multiplies), R273 and R274 (single transfers), R285 (halfwords), R304, R306 and R308 (block transfers), R312 (swaps), R329
(coprocessor 14), R365 (Thumb MUL), R377 (Thumb CMP), R424 to R427 (Thumb block transfers). -/
def breaksRule : Instr → Bool
  | .bx _ rn => rn == 15
  | .andShReg _ _ rn rd o => usesR15 [rn, rd, o.rs, o.rm]
  | .eorShReg _ _ rn rd o => usesR15 [rn, rd, o.rs, o.rm]
  | .subShReg _ _ rn rd o => usesR15 [rn, rd, o.rs, o.rm]
  | .rsbShReg _ _ rn rd o => usesR15 [rn, rd, o.rs, o.rm]
  | .addShReg _ _ rn rd o => usesR15 [rn, rd, o.rs, o.rm]
  | .adcShReg _ _ rn rd o => usesR15 [rn, rd, o.rs, o.rm]
  | .sbcShReg _ _ rn rd o => usesR15 [rn, rd, o.rs, o.rm]
  | .rscShReg _ _ rn rd o => usesR15 [rn, rd, o.rs, o.rm]
  | .orrShReg _ _ rn rd o => usesR15 [rn, rd, o.rs, o.rm]
  | .bicShReg _ _ rn rd o => usesR15 [rn, rd, o.rs, o.rm]
  | .movShReg _ _ rd o => usesR15 [rd, o.rs, o.rm]
  | .mvnShReg _ _ rd o => usesR15 [rd, o.rs, o.rm]
  | .tstShReg _ rn o => usesR15 [rn, o.rs, o.rm]
  | .teqShReg _ rn o => usesR15 [rn, o.rs, o.rm]
  | .cmpShReg _ rn o => usesR15 [rn, o.rs, o.rm]
  | .cmnShReg _ rn o => usesR15 [rn, o.rs, o.rm]
  | .mrs _ _ rd => rd == 15
  | .msrReg _ _ _ rm => rm == 15
  | .mul _ _ rd rs rm => usesR15 [rd, rs, rm] || rd == rm
  | .mla _ _ rd rn rs rm => usesR15 [rd, rn, rs, rm] || rd == rm
  | .umull _ _ hi lo rs rm => usesR15 [hi, lo, rs, rm] || hi == lo || hi == rm || lo == rm
  | .umlal _ _ hi lo rs rm => usesR15 [hi, lo, rs, rm] || hi == lo || hi == rm || lo == rm
  | .smull _ _ hi lo rs rm => usesR15 [hi, lo, rs, rm] || hi == lo || hi == rm || lo == rm
  | .smlal _ _ hi lo rs rm => usesR15 [hi, lo, rs, rm] || hi == lo || hi == rm || lo == rm
  | .swp _ rn rd rm => usesR15 [rn, rd, rm] || rn == rd || rn == rm
  | .swpb _ rn rd rm => usesR15 [rn, rd, rm] || rn == rd || rn == rm
  | .strhReg _ p _ w rn rd rm => halfBreaks p w rn rd (some rm)
  | .strhImm _ p _ w rn rd _ => halfBreaks p w rn rd none
  | .ldrhReg _ p _ w rn rd rm => halfBreaks p w rn rd (some rm)
  | .ldrhImm _ p _ w rn rd _ => halfBreaks p w rn rd none
  | .ldrsbReg _ p _ w rn rd rm => halfBreaks p w rn rd (some rm)
  | .ldrsbImm _ p _ w rn rd _ => halfBreaks p w rn rd none
  | .ldrshReg _ p _ w rn rd rm => halfBreaks p w rn rd (some rm)
  | .ldrshImm _ p _ w rn rd _ => halfBreaks p w rn rd none
  | .strImmPre _ _ w rn rd _ => transferBreaks true w false rn rd none
  | .strImmPost _ _ rn rd _ => transferBreaks true true true rn rd none
  | .strtImm _ _ rn rd _ => transferBreaks false true true rn rd none
  | .strRegPre _ _ w rn rd o => transferBreaks true w false rn rd (some o.rm)
  | .strRegPost _ _ rn rd o => transferBreaks true true true rn rd (some o.rm)
  | .strtReg _ _ rn rd o => transferBreaks false true true rn rd (some o.rm)
  | .ldrImmPre _ _ w rn rd _ => transferBreaks true w false rn rd none
  | .ldrImmPost _ _ rn rd _ => transferBreaks true true true rn rd none
  | .ldrtImm _ _ rn rd _ => transferBreaks false true true rn rd none
  | .ldrRegPre _ _ w rn rd o => transferBreaks true w false rn rd (some o.rm)
  | .ldrRegPost _ _ rn rd o => transferBreaks true true true rn rd (some o.rm)
  | .ldrtReg _ _ rn rd o => transferBreaks false true true rn rd (some o.rm)
  | .strbImmPre _ _ w rn rd _ => transferBreaks false w false rn rd none
  | .strbImmPost _ _ rn rd _ => transferBreaks false true true rn rd none
  | .strbtImm _ _ rn rd _ => transferBreaks false true true rn rd none
  | .strbRegPre _ _ w rn rd o => transferBreaks false w false rn rd (some o.rm)
  | .strbRegPost _ _ rn rd o => transferBreaks false true true rn rd (some o.rm)
  | .strbtReg _ _ rn rd o => transferBreaks false true true rn rd (some o.rm)
  | .ldrbImmPre _ _ w rn rd _ => transferBreaks false w false rn rd none
  | .ldrbImmPost _ _ rn rd _ => transferBreaks false true true rn rd none
  | .ldrbtImm _ _ rn rd _ => transferBreaks false true true rn rd none
  | .ldrbRegPre _ _ w rn rd o => transferBreaks false w false rn rd (some o.rm)
  | .ldrbRegPost _ _ rn rd o => transferBreaks false true true rn rd (some o.rm)
  | .ldrbtReg _ _ rn rd o => transferBreaks false true true rn rd (some o.rm)
  | .ldm _ _ _ w rn list => ldmBreaks w rn list
  | .ldmRet _ _ _ w rn list => ldmBreaks w rn (1#1 ++ list)
  | .ldmUser _ _ _ w rn list => list == 0 || rn == 15 || w
  | .stm _ _ _ w rn list => stmBreaks w rn list
  | .stmUser _ _ _ w rn list => list == 0 || rn == 15 || w
  | .tPush r list => !r && list == 0
  | .tPop r list => !r && list == 0
  | .tStmia rb list => stmBreaks true (lo rb) list
  | .tLdmia rb list => ldmBreaks true (lo rb) list
  | .tMul rs rd => rs == rd
  | .tCmpHd hd _ => hd == 7
  | i => coprocOf i == some 14

/-! ## The next instruction in sequence -/

/-- The instruction's rule gives the pc a value of its own: a branch, R15 as a destination, an exception. -/
def writesPc : Instr → Bool
  | .b _ _ => true
  | .bl _ _ => true
  | .bx _ _ => true
  | .tBx _ => true
  | .tB _ => true
  | .tBlLo _ => true
  | .tPop r _ => r
  | i => (destRegs i).contains 15 || (trapOf i).isSome || (condBranchOf i).isSome

/-- The value an MSR would give the CPSR is one it may have: T as it was and a mode of the table (R244, R245), where it writes them. -/
def keepsControl (s : State) (mask : BitVec 4) (v : Word) : Bool :=
  s.cpsr.mode == .usr || !mask.getLsbD 0 || (v.getLsbD 5 == s.cpsr.t && legalMode (v.extractLsb' 0 5))

/-- Nothing but the pc's advance can stop the instruction or turn it into an exception: its accesses are taken and aligned, the mode
has the bank or the SPSR it names, and what it writes to the CPSR is legal. -/
def unobstructed (i : Instr) (s : State) : Bool :=
  bankOk i s
    && (match loadOf s i with | some x => accessible s x.loc.addr x.kind.size x.priv false | none => true)
    && (match storeOf s i with | some x => accessible s x.loc.addr x.kind.size x.priv true | none => true)
    && (match blockLoadOf s i with | some b => b.fits && !b.aborts s false | none => true)
    && (match blockStoreOf s i with | some b => b.fits && !b.aborts s true | none => true)
    && (match swapOf i with
        | some (size, rn, _, _) =>
          accessible s (readReg s rn) size s.cpsr.mode.privileged false && accessible s (readReg s rn) size s.cpsr.mode.privileged true
        | none => true)
    && (match msrOf s i with
        | some (spsr, mask, v) => if spsr then (s.spsrs.get s.cpsr.mode).isSome else keepsControl s mask v
        | none => true)
    && (match i with
        | .mrs _ spsr _ => !spsr || (s.spsrs.get s.cpsr.mode).isSome
        | _ => true)

end Sys2Proof.Claims
end

