-- ==== Sys2Proof/Certificates/Slice0/Obligations.lean ====
section
/-! DEFINITION. The statements for the provers, one `def Obligations.<Name> : Prop` each, from the numbered rules of spec/. A
docstring names the rules; `executes`, `room`, `past` and `goTo` are those of Sys2Proof/Claims/Shape.lean. -/

open Sys2Proof Sys2Proof.Machine Sys2Proof.Claims

/-! ## Encoding (30_encoding) -/

/-- Decoding what the encoder gives for an instruction, any instruction and any value of its fields, gives it back. -/
def Obligations.EncodeThenDecode : Prop := ∀ i : Instr, decode (encode i) = .ok i

/-- A word that decodes is the word of the instruction it decodes to: decoding drops no bit, and no two words are one instruction. -/
def Obligations.DecodeThenEncode : Prop := ∀ (e : Encoding) (i : Instr), decode e = .ok i → encode i = e

/-- Words written out bit by bit from the formats of R142 and R150 decode to the instructions they stand for. -/
def Obligations.DecodeWords : Prop :=
  -- cond 1110, 000, opcode 0100, S 0, Rn 0001, Rd 0001, 00000000, Rm 0010: ADD R1, R1, R2 (R212)
  decodeArm 0b11100000100000010001000000000010#32 = .ok (.addShImm .al false 1 1 ⟨0, .lsl, 2⟩) ∧
  -- cond 1110, 010, P 1, U 0, B 0, W 1, L 0, Rn 1101, Rd 0000, 000000000100: STR R0, [SP, #-4]! (R268)
  decodeArm 0b11100101001011010000000000000100#32 = .ok (.strImmPre .al false true 13 0 4) ∧
  -- cond 1110, 100, P 0, U 1, S 1, W 1, L 1, Rn 1101, list 1000000000001111: LDMFD SP!, (R0-R3, PC)^ (R303)
  decodeArm 0b11101000111111011000000000001111#32 = .ok (.ldmRet .al false true true 13 0b1111) ∧
  -- cond 0000, 1111, imm24: SWIEQ 1 (R321)
  decodeArm 0b00001111000000000000000000000001#32 = .ok (.swi .eq 1) ∧
  -- 00011 0 0 Rn 010 Rs 001 Rd 000: ADD R0, R1, R2 (R344)
  decodeThumb 0b0001100010001000#16 = .ok (.tAddReg 2 1 0) ∧
  -- 1011 0 10 R 1 list 00010000: PUSH (R4, LR) (R424)
  decodeThumb 0b1011010100010000#16 = .ok (.tPush true 0b00010000) ∧
  -- 11111 imm11 00001111110: BL, second half (R447)
  decodeThumb 0b1111100001111110#16 = .ok (.tBlLo 0b00001111110)

/-- R144: an ARM word with bits [31:28] = 1111 is refused whatever row the rest of it would match, by the decoder and by the step. -/
def Obligations.ReservedCondition : Prop :=
  ∀ w : Word, w.extractLsb' 28 4 = 0b1111#4 →
    decodeArm w = .error .reservedCondition ∧
    ∀ (hazard : Bool) (s : State), s.cpsr.t = false → dispatch hazard w s = .stop .reservedCondition

/-- R153, and R379 for BX with a non-zero Rd field: exactly the unallocated Thumb halfwords are rejected, all under one name (the name is
the model's, log entry 17); every other halfword is a Thumb instruction, and none is a coprocessor instruction. -/
def Obligations.ThumbUnallocated : Prop :=
  ∀ h : Half,
    (decodeThumb h = .error .unallocatedThumb ↔ (unallocatedThumb h = true ∨ bxNonZero h = true)) ∧
    (∀ e, decodeThumb h = .error e → e = .unallocatedThumb) ∧
    (∀ i, decodeThumb h = .ok i → isThumb i = true ∧ coprocOf i = none)

/-! ## Conditions (30_encoding R143, 00_scope R14) -/

/-- R143: the table of ConditionPassed, each row its field and when it is true; 1111 is no condition. -/
def Obligations.ConditionTable : Prop :=
  ∀ p : Psr,
    (Cond.ofBits 0b0000#4 = some .eq ∧ (condPassed .eq p = true ↔ p.z = true)) ∧
    (Cond.ofBits 0b0001#4 = some .ne ∧ (condPassed .ne p = true ↔ p.z = false)) ∧
    (Cond.ofBits 0b0010#4 = some .cs ∧ (condPassed .cs p = true ↔ p.c = true)) ∧
    (Cond.ofBits 0b0011#4 = some .cc ∧ (condPassed .cc p = true ↔ p.c = false)) ∧
    (Cond.ofBits 0b0100#4 = some .mi ∧ (condPassed .mi p = true ↔ p.n = true)) ∧
    (Cond.ofBits 0b0101#4 = some .pl ∧ (condPassed .pl p = true ↔ p.n = false)) ∧
    (Cond.ofBits 0b0110#4 = some .vs ∧ (condPassed .vs p = true ↔ p.v = true)) ∧
    (Cond.ofBits 0b0111#4 = some .vc ∧ (condPassed .vc p = true ↔ p.v = false)) ∧
    (Cond.ofBits 0b1000#4 = some .hi ∧ (condPassed .hi p = true ↔ (p.c = true ∧ p.z = false))) ∧
    (Cond.ofBits 0b1001#4 = some .ls ∧ (condPassed .ls p = true ↔ (p.c = false ∨ p.z = true))) ∧
    (Cond.ofBits 0b1010#4 = some .ge ∧ (condPassed .ge p = true ↔ p.n = p.v)) ∧
    (Cond.ofBits 0b1011#4 = some .lt ∧ (condPassed .lt p = true ↔ p.n ≠ p.v)) ∧
    (Cond.ofBits 0b1100#4 = some .gt ∧ (condPassed .gt p = true ↔ (p.z = false ∧ p.n = p.v))) ∧
    (Cond.ofBits 0b1101#4 = some .le ∧ (condPassed .le p = true ↔ (p.z = true ∨ p.n ≠ p.v))) ∧
    (Cond.ofBits 0b1110#4 = some .al ∧ condPassed .al p = true) ∧
    Cond.ofBits 0b1111#4 = none

/-- R14: an ARM instruction whose condition fails does nothing except pc <- pc + 4; nothing else of the state changes. All 106
ARM instructions, whatever their fields (that broken restrictions do not matter then is log entry 14, DEDUCED); R35: at the top of the
address space it is refused (at the instruction that would advance past it: log entry 15, DEDUCED). -/
def Obligations.FailedCondition : Prop :=
  ∀ (i : Instr) (s : State), isThumb i = false → s.cpsr.t = false → condPassed (condOf i) s.cpsr = false →
    (room s = true → exec i s = .next { s with pc := s.pc + 4 }) ∧
    (room s = false → exec i s = .refused .runOffTop)

/-! ## The adder and the shifter (00_scope R13, 41_arm_data_processing R202 to R204, R206) -/

/-- R13: AddWithCarry's result, carry and overflow over the exact sums; subtraction is AddWithCarry(a, NOT b, 1), its carry no
borrow, and subtraction with carry is AddWithCarry(a, NOT b, C). -/
def Obligations.AddWithCarryRule : Prop :=
  ∀ (a b : Word) (cin : Bool),
    (addWithCarry a b cin).result.toNat = (a.toNat + b.toNat + cin.toNat) % 2 ^ 32 ∧
    ((addWithCarry a b cin).carry = true ↔ 2 ^ 32 ≤ a.toNat + b.toNat + cin.toNat) ∧
    ((addWithCarry a b cin).ovf = true ↔
      (a.toInt + b.toInt + (cin.toNat : Int) < -2 ^ 31 ∨ 2 ^ 31 - 1 < a.toInt + b.toInt + (cin.toNat : Int))) ∧
    (addWithCarry a (~~~b) true).result = a - b ∧
    ((addWithCarry a (~~~b) true).carry = true ↔ b.toNat ≤ a.toNat) ∧
    (addWithCarry a (~~~b) cin).result = a - b - (if cin then 0 else 1)

/-- R218: after CMP a, b the conditions are the relations of a and b, correct even when the subtraction overflows. -/
def Obligations.CompareRelations : Prop :=
  ∀ (a : Word) (o : Shifted) (p : Psr),
    (condPassed .eq (flagsOf (alu .cmp a o p) p) = true ↔ a = o.value) ∧
    (condPassed .cs (flagsOf (alu .cmp a o p) p) = true ↔ o.value.toNat ≤ a.toNat) ∧
    (condPassed .hi (flagsOf (alu .cmp a o p) p) = true ↔ o.value.toNat < a.toNat) ∧
    (condPassed .ge (flagsOf (alu .cmp a o p) p) = true ↔ o.value.toInt ≤ a.toInt) ∧
    (condPassed .gt (flagsOf (alu .cmp a o p) p) = true ↔ o.value.toInt < a.toInt) ∧
    (condPassed .lt (flagsOf (alu .cmp a o p) p) = true ↔ a.toInt < o.value.toInt) ∧
    (condPassed .le (flagsOf (alu .cmp a o p) p) = true ↔ a.toInt ≤ o.value.toInt)

/-- R202, bit by bit: bit i of op2 is bit i + 2 * rotate of imm8, counted around 32 bits; the carry-out is C when rotate = 0, else
op2[31]. -/
def Obligations.ImmediateOperand : Prop :=
  ∀ (o : RotImm) (c : Bool),
    (∀ i, i < 32 → (immOperand o c).value.getLsbD i = o.imm8.getLsbD ((i + 2 * o.rotate.toNat) % 32)) ∧
    (o.rotate = 0 → (immOperand o c).carry = c) ∧
    (o.rotate ≠ 0 → (immOperand o c).carry = (immOperand o c).value.getLsbD 31)

/-- R203, bit by bit: each row of the table, `n` the shift_imm field. -/
def Obligations.ShiftByImmediate : Prop :=
  ∀ (m : Word) (n : BitVec 5) (c : Bool),
    -- LSL #0
    (n = 0 → shiftImm .lsl m n c = { value := m, carry := c }) ∧
    -- LSL #n
    (n ≠ 0 → (∀ i, i < 32 → (shiftImm .lsl m n c).value.getLsbD i = (decide (n.toNat ≤ i) && m.getLsbD (i - n.toNat))) ∧
      (shiftImm .lsl m n c).carry = m.getLsbD (32 - n.toNat)) ∧
    -- LSR #32
    (n = 0 → shiftImm .lsr m n c = { value := 0, carry := m.getLsbD 31 }) ∧
    -- LSR #n
    (n ≠ 0 → (∀ i, i < 32 → (shiftImm .lsr m n c).value.getLsbD i = m.getLsbD (i + n.toNat)) ∧
      (shiftImm .lsr m n c).carry = m.getLsbD (n.toNat - 1)) ∧
    -- ASR #32
    (n = 0 → (∀ i, i < 32 → (shiftImm .asr m n c).value.getLsbD i = m.getLsbD 31) ∧
      (shiftImm .asr m n c).carry = m.getLsbD 31) ∧
    -- ASR #n
    (n ≠ 0 → (∀ i, i < 32 → (shiftImm .asr m n c).value.getLsbD i = m.getLsbD (min (i + n.toNat) 31)) ∧
      (shiftImm .asr m n c).carry = m.getLsbD (n.toNat - 1)) ∧
    -- RRX
    (n = 0 → (∀ i, i < 31 → (shiftImm .ror m n c).value.getLsbD i = m.getLsbD (i + 1)) ∧
      (shiftImm .ror m n c).value.getLsbD 31 = c ∧ (shiftImm .ror m n c).carry = m.getLsbD 0) ∧
    -- ROR #n
    (n ≠ 0 → (∀ i, i < 32 → (shiftImm .ror m n c).value.getLsbD i = m.getLsbD ((i + n.toNat) % 32)) ∧
      (shiftImm .ror m n c).carry = m.getLsbD (n.toNat - 1))

/-- R204, bit by bit: each row of the table, `n` the low byte of Rs; only that byte is used, and Rs = R15 is refused. -/
def Obligations.ShiftByRegister : Prop :=
  (∀ (m : Word) (n : Byte) (c : Bool),
    (∀ type, n = 0 → shiftReg type m n c = { value := m, carry := c }) ∧
    -- LSL
    (1 ≤ n.toNat → n.toNat ≤ 31 →
      (∀ i, i < 32 → (shiftReg .lsl m n c).value.getLsbD i = (decide (n.toNat ≤ i) && m.getLsbD (i - n.toNat))) ∧
      (shiftReg .lsl m n c).carry = m.getLsbD (32 - n.toNat)) ∧
    (n.toNat = 32 → shiftReg .lsl m n c = { value := 0, carry := m.getLsbD 0 }) ∧
    (33 ≤ n.toNat → shiftReg .lsl m n c = { value := 0, carry := false }) ∧
    -- LSR
    (1 ≤ n.toNat → n.toNat ≤ 31 →
      (∀ i, i < 32 → (shiftReg .lsr m n c).value.getLsbD i = m.getLsbD (i + n.toNat)) ∧
      (shiftReg .lsr m n c).carry = m.getLsbD (n.toNat - 1)) ∧
    (n.toNat = 32 → shiftReg .lsr m n c = { value := 0, carry := m.getLsbD 31 }) ∧
    (33 ≤ n.toNat → shiftReg .lsr m n c = { value := 0, carry := false }) ∧
    -- ASR
    (1 ≤ n.toNat → n.toNat ≤ 31 →
      (∀ i, i < 32 → (shiftReg .asr m n c).value.getLsbD i = m.getLsbD (min (i + n.toNat) 31)) ∧
      (shiftReg .asr m n c).carry = m.getLsbD (n.toNat - 1)) ∧
    (32 ≤ n.toNat → (∀ i, i < 32 → (shiftReg .asr m n c).value.getLsbD i = m.getLsbD 31) ∧
      (shiftReg .asr m n c).carry = m.getLsbD 31) ∧
    -- ROR
    (n ≠ 0 → n.toNat % 32 = 0 → shiftReg .ror m n c = { value := m, carry := m.getLsbD 31 }) ∧
    (n.toNat % 32 ≠ 0 → (∀ i, i < 32 → (shiftReg .ror m n c).value.getLsbD i = m.getLsbD ((i + n.toNat) % 32)) ∧
      (shiftReg .ror m n c).carry = m.getLsbD (n.toNat % 32 - 1))) ∧
  (∀ (s : State) (o : ShReg),
    shRegForm s o = shiftReg o.type (readReg s o.rm) (BitVec.ofNat 8 ((readReg s o.rs).toNat % 256)) s.cpsr.c) ∧
  (∀ (op : AluOp) (c : Cond) (sf : Bool) (rn rd : Reg) (o : ShReg) (s : State), o.rs = 15 → condPassed c s.cpsr = true →
    exec (dpInstr op c sf rn rd (.shReg o)) s = .refused (.operands .usesPc))

/-- R206: R15 as an operand reads as pc + 8 (bits [1:0] are 00) with an immediate or a shift amount in the instruction; in the form
with the amount in a register, R15 in any field is refused. -/
def Obligations.PcAsOperand : Prop :=
  (∀ s : State, s.cpsr.t = false →
    readReg s 15 = s.pc + 8 ∧ (pcAligned s = true → (readReg s 15).extractLsb' 0 2 = 0#2) ∧
    (∀ o : ShImm, o.rm = 15 → shImmForm s o = shiftImm o.type (s.pc + 8) o.amount s.cpsr.c)) ∧
  (∀ (op : AluOp) (c : Cond) (sf : Bool) (rn rd : Reg) (o : ShReg) (s : State), condPassed c s.cpsr = true →
    (o.rs = 15 ∨ o.rm = 15 ∨ (rn = 15 ∧ op ≠ .mov ∧ op ≠ .mvn) ∨ (rd = 15 ∧ compares op = false)) →
    exec (dpInstr op c sf rn rd (.shReg o)) s = .refused (.operands .usesPc))

/-! ## ARM data processing (41_arm_data_processing R200, R207 to R224) -/

/-- AND, EOR, ORR, MOV, BIC and MVN in their three operand forms, Rd not R15: Rd, with S = 1 the flags (C the shifter's carry-out,
V unchanged), and nothing else but the pc. -/
def Obligations.LogicalOperations : Prop :=
  ∀ (op : AluOp) (c : Cond) (sf : Bool) (rn rd : Reg) (o : Op2) (s : State),
    logical op = true → executes (dpInstr op c sf rn rd o) s = true → rd ≠ 15 → room s = true →
    exec (dpInstr op c sf rn rd o) s = .next (past s
      { writeReg s rd (dpResult op (readReg s rn) (o.value s).value s.cpsr.c) with
        cpsr := if sf then dpFlags op (readReg s rn) (o.value s) s.cpsr else s.cpsr })

/-- SUB, RSB, ADD, ADC, SBC and RSC in their three operand forms, Rd not R15: Rd, with S = 1 the four flags of the exact sum or
difference, and nothing else but the pc. -/
def Obligations.ArithmeticOperations : Prop :=
  ∀ (op : AluOp) (c : Cond) (sf : Bool) (rn rd : Reg) (o : Op2) (s : State),
    arithmetic op = true → executes (dpInstr op c sf rn rd o) s = true → rd ≠ 15 → room s = true →
    exec (dpInstr op c sf rn rd o) s = .next (past s
      { writeReg s rd (dpResult op (readReg s rn) (o.value s).value s.cpsr.c) with
        cpsr := if sf then dpFlags op (readReg s rn) (o.value s) s.cpsr else s.cpsr })

/-- TST, TEQ, CMP and CMN in their three operand forms: only the flags and the pc change. -/
def Obligations.Comparisons : Prop :=
  ∀ (op : AluOp) (c : Cond) (sf : Bool) (rn rd : Reg) (o : Op2) (s : State),
    compares op = true → executes (dpInstr op c sf rn rd o) s = true → room s = true →
    exec (dpInstr op c sf rn rd o) s = .next (past s { s with cpsr := dpFlags op (readReg s rn) (o.value s) s.cpsr })

/-- R207, S = 0, Rd = R15: a branch to the result, nothing else changed; a result whose bits [1:0] are not 00 is refused (R34). -/
def Obligations.DataProcessingToPc : Prop :=
  ∀ (op : AluOp) (c : Cond) (rn : Reg) (o : Op2) (s : State),
    compares op = false → executes (dpInstr op c false rn 15 o) s = true →
    ((dpResult op (readReg s rn) (o.value s).value s.cpsr.c).extractLsb' 0 2 = 0#2 →
      exec (dpInstr op c false rn 15 o) s = .next (goTo (dpResult op (readReg s rn) (o.value s).value s.cpsr.c) s)) ∧
    ((dpResult op (readReg s rn) (o.value s).value s.cpsr.c).extractLsb' 0 2 ≠ 0#2 →
      exec (dpInstr op c false rn 15 o) s = .refused .unalignedTarget)

/-- R207, S = 1, Rd = R15: the exception return. The CPSR becomes the SPSR of the mode, the flags are not computed, bit 0 of the
result is cleared for Thumb state, and for ARM state bits [1:0] must be 00; in User and System mode it is refused, and so is an SPSR
whose mode bits are no mode (R21; that refused is chosen of the spec's two treatments is log entry 18). -/
def Obligations.DataProcessingReturn : Prop :=
  ∀ (op : AluOp) (c : Cond) (rn : Reg) (o : Op2) (s : State),
    compares op = false → executes (dpInstr op c true rn 15 o) s = true →
    (∀ p : Psr, s.spsrs.get s.cpsr.mode = some p.toWord →
      (p.t = true → exec (dpInstr op c true rn 15 o) s = .next
        (goTo (dpResult op (readReg s rn) (o.value s).value s.cpsr.c &&& 0xFFFFFFFE) { s with cpsr := p })) ∧
      (p.t = false → (dpResult op (readReg s rn) (o.value s).value s.cpsr.c).extractLsb' 0 2 = 0#2 →
        exec (dpInstr op c true rn 15 o) s = .next
          (goTo (dpResult op (readReg s rn) (o.value s).value s.cpsr.c) { s with cpsr := p })) ∧
      (p.t = false → (dpResult op (readReg s rn) (o.value s).value s.cpsr.c).extractLsb' 0 2 ≠ 0#2 →
        exec (dpInstr op c true rn 15 o) s = .refused .unalignedTarget)) ∧
    ((s.cpsr.mode = .usr ∨ s.cpsr.mode = .sys) → exec (dpInstr op c true rn 15 o) s = .refused .noSpsr) ∧
    (badReturn s = true → exec (dpInstr op c true rn 15 o) s = .refused .illegalMode)

/-! ## PSR transfer (42_arm_psr_transfer, 10_state R36) -/

/-- R36: which bit of the CPSR each field is, and reading 32 bits back as a CPSR gives the same fields. -/
def Obligations.CpsrLayout : Prop :=
  ∀ p : Psr,
    p.toWord.getLsbD 31 = p.n ∧ p.toWord.getLsbD 30 = p.z ∧ p.toWord.getLsbD 29 = p.c ∧ p.toWord.getLsbD 28 = p.v ∧
    p.toWord.extractLsb' 8 20 = p.reserved ∧ p.toWord.getLsbD 7 = p.i ∧ p.toWord.getLsbD 6 = p.f ∧ p.toWord.getLsbD 5 = p.t ∧
    p.toWord.extractLsb' 0 5 = p.mode.bits ∧ Psr.ofWord p.toWord = some p ∧
    (∀ (w : Word) (q : Psr), Psr.ofWord w = some q → q.toWord = w)

/-- R241: MRS copies all 32 bits of the CPSR, or of the SPSR of the mode; the SPSR in User or System mode, and Rd = R15, are refused. -/
def Obligations.MrsCopiesPsr : Prop :=
  ∀ (c : Cond) (rd : Reg) (s : State), s.cpsr.t = false → condPassed c s.cpsr = true →
    (rd ≠ 15 → room s = true →
      exec (.mrs c false rd) s = .next (past s (writeReg s rd s.cpsr.toWord)) ∧
      (∀ w, s.spsrs.get s.cpsr.mode = some w → exec (.mrs c true rd) s = .next (past s (writeReg s rd w)))) ∧
    (rd ≠ 15 → (s.cpsr.mode = .usr ∨ s.cpsr.mode = .sys) → exec (.mrs c true rd) s = .refused .noSpsr) ∧
    (rd = 15 → ∀ spsr, exec (.mrs c spsr rd) s = .refused (.operands .usesPc))

/-- R244, R245: MSR to the CPSR writes the bytes of the mask, in User mode only the flags byte, and leaves every other bit; a write
that would change T, or give no legal mode, is refused. -/
def Obligations.MsrCpsr : Prop :=
  ∀ (i : Instr) (s : State) (mask : BitVec 4) (v : Word),
    msrOf s i = some (false, mask, v) → executes i s = true →
    (∀ p : Psr, room s = true → p.t = s.cpsr.t →
      (∀ k, k < 32 → p.toWord.getLsbD k =
        (if mask.getLsbD (k / 8) = true ∧ (s.cpsr.mode ≠ .usr ∨ 24 ≤ k) then v.getLsbD k else s.cpsr.toWord.getLsbD k)) →
      exec i s = .next (past s { s with cpsr := p })) ∧
    (s.cpsr.mode ≠ .usr → mask.getLsbD 0 = true → v.getLsbD 5 ≠ s.cpsr.t → exec i s = .refused .changesT) ∧
    (s.cpsr.mode ≠ .usr → mask.getLsbD 0 = true → v.getLsbD 5 = s.cpsr.t → Mode.ofBits (v.extractLsb' 0 5) = none →
      exec i s = .refused .illegalMode)

/-- R244: MSR to the SPSR writes the bytes of the mask into the SPSR of the mode, any value; in User and System mode it is refused. -/
def Obligations.MsrSpsr : Prop :=
  ∀ (i : Instr) (s : State) (mask : BitVec 4) (v : Word),
    msrOf s i = some (true, mask, v) → executes i s = true →
    (∀ w w' : Word, s.spsrs.get s.cpsr.mode = some w → room s = true →
      (∀ k, k < 32 → w'.getLsbD k = (if mask.getLsbD (k / 8) = true then v.getLsbD k else w.getLsbD k)) →
      exec i s = .next (past s { s with spsrs := s.spsrs.set s.cpsr.mode w' })) ∧
    ((s.cpsr.mode = .usr ∨ s.cpsr.mode = .sys) → exec i s = .refused .noSpsr)

/-! ## Multiplies (43_arm_multiply, 47_thumb_alu R365) -/

/-- MUL, MLA and Thumb MUL: Rd takes the low 32 bits of the exact product (and sum); with S = 1, N and Z from it, V unchanged, and C a
free value (log entry 9), whatever that is. -/
def Obligations.MultiplyResult : Prop :=
  ∀ (i : Instr) (s : State) (sf : Bool) (rd : Reg) (v : Word),
    mulOf s i = some (sf, rd, v) → executes i s = true → room s = true →
    (sf = false → exec i s = .next (past s (writeReg s rd v))) ∧
    (sf = true → exec i s = .next (past s
      { writeReg s rd v with
        cpsr := { s.cpsr with n := v.getLsbD 31, z := decide (v = 0), c := Config.freeBit s.draws }
        draws := s.draws + 1 }))

/-- UMULL, UMLAL, SMULL and SMLAL: RdHi and RdLo take the 64-bit result; with S = 1, N and Z from all 64 bits, C and V free values
(log entry 9). -/
def Obligations.MultiplyLongResult : Prop :=
  ∀ (i : Instr) (s : State) (sf : Bool) (rdHi rdLo : Reg) (v : BitVec 64),
    mulLongOf s i = some (sf, rdHi, rdLo, v) → executes i s = true → room s = true →
    (sf = false →
      exec i s = .next (past s (writeReg (writeReg s rdHi (v.extractLsb' 32 32)) rdLo (v.extractLsb' 0 32)))) ∧
    (sf = true → exec i s = .next (past s
      { writeReg (writeReg s rdHi (v.extractLsb' 32 32)) rdLo (v.extractLsb' 0 32) with
        cpsr := { s.cpsr with n := v.getLsbD 63, z := decide (v = 0), c := Config.freeBit s.draws,
                              v := Config.freeBit (s.draws + 1) }
        draws := s.draws + 2 }))

/-- R260: the low 32 bits of a product are the same read signed or unsigned; UMULL's and SMULL's 64 bits are the exact products, and
the signs of SMULL. -/
def Obligations.MultiplyLaws : Prop :=
  ∀ a b : Word,
    BitVec.ofNat 32 (a.toNat * b.toNat) = BitVec.ofInt 32 (a.toInt * b.toInt) ∧
    (umulProduct a b).toNat = a.toNat * b.toNat ∧
    (smulProduct a b).toInt = a.toInt * b.toInt ∧
    (umulProduct a b).extractLsb' 0 32 = (smulProduct a b).extractLsb' 0 32 ∧
    (0 < a.toInt * b.toInt → (smulProduct a b).getLsbD 63 = false) ∧
    (a.toInt * b.toInt < 0 → (smulProduct a b).getLsbD 63 = true)

/-! ## Single transfers (44_arm_load_store, 48_thumb_load_store) -/

/-- A single load that the memory system answers: from ordinary memory Rd takes the value, the base its new value, and the access is on
the bus once with the privilege of the form; Rd = R15 is a branch with bits [1:0] ignored, T unchanged; from a device region (92 D4; log
entry 6) Rd or the pc takes a free value of the access's width, whatever it is. -/
def Obligations.SingleLoad : Prop :=
  ∀ (i : Instr) (s : State) (x : Xfer),
    loadOf s i = some x → executes i s = true → accessible s x.loc.addr x.kind.size x.priv false = true →
    (x.rd ≠ 15 → room s = true → isMemory s x.loc.addr = true →
      exec i s = .next (past s
        { writeReg (writeBack s x.rn x.loc.wb) x.rd
            (loadedValue x.kind (memRead s.env.bigEndian s.mem x.loc.addr x.kind.size)) with
          bus := s.bus ++ [dataAccess s x.loc.addr x.kind.size x.priv false false none] })) ∧
    (x.rd = 15 → isMemory s x.loc.addr = true →
      exec i s = .next (goTo (memRead s.env.bigEndian s.mem x.loc.addr .word &&& 0xFFFFFFFC)
        { writeBack s x.rn x.loc.wb with
          bus := s.bus ++ [dataAccess s x.loc.addr .word x.priv false false none] })) ∧
    (x.rd ≠ 15 → room s = true → isMemory s x.loc.addr = false →
      exec i s = .next (past s
        { writeReg (writeBack s x.rn x.loc.wb) x.rd (loadedValue x.kind (Config.freeWord s.draws)) with
          bus := s.bus ++ [dataAccess s x.loc.addr x.kind.size x.priv false false none]
          draws := s.draws + 1 })) ∧
    (x.rd = 15 → isMemory s x.loc.addr = false →
      exec i s = .next (goTo (Config.freeWord s.draws &&& 0xFFFFFFFC)
        { writeBack s x.rn x.loc.wb with
          bus := s.bus ++ [dataAccess s x.loc.addr .word x.priv false false none]
          draws := s.draws + 1 }))

/-- A single store that the memory system takes: the bytes of Rd (pc + 12 for R15) are stored in ordinary memory, and in ROM or a
device nothing is; the base takes its new value. -/
def Obligations.SingleStore : Prop :=
  ∀ (i : Instr) (s : State) (x : Xfer) (v : Word),
    storeOf s i = some x → executes i s = true → room s = true →
    accessible s x.loc.addr x.kind.size x.priv true = true → v = (if x.rd = 15 then s.pc + 12 else readReg s x.rd) →
    exec i s = .next (past s
      { writeBack s x.rn x.loc.wb with
        mem := if isRam s x.loc.addr then memWrite s.env.bigEndian s.mem x.loc.addr v x.kind.size else s.mem
        bus := s.bus ++ [dataAccess s x.loc.addr x.kind.size x.priv true false (some (lanes v x.kind.size))] })

/-- R290, R474: a single transfer that the memory system aborts writes the base back, loads and stores nothing, and takes the Data
Abort; R87 (92 D5): one that it does not abort at a misaligned address is refused. -/
def Obligations.SingleAbort : Prop :=
  ∀ (i : Instr) (s : State) (x : Xfer) (write : Bool),
    (if write then storeOf s i else loadOf s i) = some x → executes i s = true →
    (s.env.aborts x.loc.addr x.kind.size .data x.priv write = true →
      ∃ t, exec i s = .next t ∧ TookDataAbort s t ∧ t.mem = s.mem ∧
        (∀ p, p ≠ .r14Abt → t.regs.get p = (writeBack s x.rn x.loc.wb).regs.get p)) ∧
    (s.env.aborts x.loc.addr x.kind.size .data x.priv write = false → misaligned x.loc.addr x.kind.size = true →
      exec i s = .refused .misalignedData)

/-- R277, R99, R100, R101: the one data access of a completed single transfer drives nTRANS LOW (User) for a T variant whatever the
mode, and as the mode otherwise; LOCK is LOW, TBIT is CPSR.T, nOPC is HIGH. -/
def Obligations.AccessPins : Prop :=
  ∀ (i : Instr) (s t : State) (x : Xfer),
    (loadOf s i = some x ∨ storeOf s i = some x) → executes i s = true → exec i s = .next t →
    ∃ a : Access, t.bus = s.bus ++ [a] ∧ a.LOCK = false ∧ a.TBIT = s.cpsr.t ∧ a.nOPC = true ∧
      a.nTRANS = (if isTVariant i then false else decide (s.cpsr.mode ≠ .usr))

/-! ## Block transfers and swap (45_arm_block_swap, 48_thumb_load_store) -/

/-- LDM, LDM of the User bank, POP and LDMIA: register k of the list takes the word at start + 4k where that is ordinary memory (from a
device region, 92 D4 and log entry 6, some value), the base its new value, R15 is a branch (bits [1:0] ignored in ARM state, bit 0 in
Thumb state), every other register is as it was, and the hazard of R314 is set by the User-bank form alone (a step clears it before
any instruction runs). R304: the User-bank form in User or System mode is refused. -/
def Obligations.BlockLoad : Prop :=
  (∀ (i : Instr) (s : State) (b : Block),
    blockLoadOf s i = some b → isReturn i = false → executes i s = true → bankOk i s = true → b.fits = true →
    b.aborts s false = false → ((15 : Reg) ∈ b.regs ∨ room s = true) →
    ∃ t, exec i s = .next t ∧
      (∀ (k : Nat) (r : Reg) (p : Phys), b.regs[k]? = some r → bank b.mode r = some p → isMemory s (b.addr k) = true →
        t.regs.get p = memRead s.env.bigEndian s.mem (b.addr k) .word) ∧
      (∀ (p : Phys), (∀ r ∈ b.regs, bank b.mode r ≠ some p) →
        t.regs.get p = (writeBack s b.rn b.wb).regs.get p) ∧
      ((15 : Reg) ∉ b.regs → t.pc = s.pc + (if s.cpsr.t then 2 else 4)) ∧
      ((15 : Reg) ∈ b.regs → isMemory s (b.addr (b.regs.length - 1)) = true →
        t.pc = memRead s.env.bigEndian s.mem (b.addr (b.regs.length - 1)) .word &&& (if s.cpsr.t then 0xFFFFFFFE else 0xFFFFFFFC)) ∧
      t.userLdm = (isUserLoad i || s.userLdm) ∧ (ready s).userLdm = false ∧
      t.cpsr = s.cpsr ∧ t.mem = s.mem ∧ t.spsrs = s.spsrs) ∧
  (∀ (c : Cond) (p u w : Bool) (rn : Reg) (list : BitVec 15) (s : State),
    executes (.ldmUser c p u w rn list) s = true → (s.cpsr.mode = .usr ∨ s.cpsr.mode = .sys) →
    exec (.ldmUser c p u w rn list) s = .refused .userBankMode)

/-- R303: LDM with ^ and R15, in a mode with an SPSR: the list is loaded into the bank of the mode before the return (the words that are
in ordinary memory), the base takes its new value, the CPSR becomes the SPSR, and the pc the last word, masked as the restored T says;
in User or System mode it is refused; R21: an SPSR whose mode bits are no mode is refused at the return (log entries 18 and 30). -/
def Obligations.BlockLoadReturn : Prop :=
  ∀ (c : Cond) (p u w : Bool) (rn : Reg) (list : BitVec 15) (s : State) (b : Block),
    blockLoadOf s (.ldmRet c p u w rn list) = some b → executes (.ldmRet c p u w rn list) s = true →
    ((s.cpsr.mode = .usr ∨ s.cpsr.mode = .sys) → exec (.ldmRet c p u w rn list) s = .refused .noSpsr) ∧
    (b.fits = true → b.aborts s false = false → badReturn s = true →
      exec (.ldmRet c p u w rn list) s = .refused .illegalMode) ∧
    ∀ q : Psr, b.fits = true → b.aborts s false = false → s.spsrs.get s.cpsr.mode = some q.toWord →
    ∃ t, exec (.ldmRet c p u w rn list) s = .next t ∧
      (∀ (k : Nat) (r : Reg) (ph : Phys), b.regs[k]? = some r → bank s.cpsr.mode r = some ph → isMemory s (b.addr k) = true →
        t.regs.get ph = memRead s.env.bigEndian s.mem (b.addr k) .word) ∧
      (∀ (ph : Phys), (∀ r ∈ b.regs, bank s.cpsr.mode r ≠ some ph) →
        t.regs.get ph = (writeBack s b.rn b.wb).regs.get ph) ∧
      t.cpsr = q ∧
      (isMemory s (b.addr (b.regs.length - 1)) = true →
        t.pc = memRead s.env.bigEndian s.mem (b.addr (b.regs.length - 1)) .word &&& (if q.t then 0xFFFFFFFE else 0xFFFFFFFC)) ∧
      t.userLdm = s.userLdm ∧ t.mem = s.mem ∧ t.spsrs = s.spsrs

/-- STM, STM of the User bank, PUSH and STMIA: the word at start + 4k, where that is RAM, is register k of the list (pc + 12 for R15) as it
was before the write-back; a word in ROM or a device region (92 D4; log entry 6) and every byte outside the block are as they were, and
the base takes its new value. R306: the User-bank form in User or System mode is refused. -/
def Obligations.BlockStore : Prop :=
  (∀ (i : Instr) (s : State) (b : Block),
    blockStoreOf s i = some b → executes i s = true → bankOk i s = true → b.fits = true →
    b.aborts s true = false → room s = true →
    ∃ t, exec i s = .next t ∧
      (∀ (k : Nat) (r : Reg), b.regs[k]? = some r → isRam s (b.addr k) = true →
        memRead s.env.bigEndian t.mem (b.addr k) .word = (if r = 15 then s.pc + 12 else readBank s b.mode r)) ∧
      (∀ k a, k < b.regs.length → isRam s (b.addr k) = false → outside a (b.addr k) 4 = false → t.mem.read a = s.mem.read a) ∧
      (∀ a, outside a b.start (4 * b.regs.length) = true → t.mem.read a = s.mem.read a) ∧
      t.regs = (writeBack s b.rn b.wb).regs ∧ t.pc = s.pc + (if s.cpsr.t then 2 else 4) ∧ t.cpsr = s.cpsr ∧ t.spsrs = s.spsrs) ∧
  (∀ (c : Cond) (p u w : Bool) (rn : Reg) (list : BitVec 16) (s : State),
    executes (.stmUser c p u w rn list) s = true → (s.cpsr.mode = .usr ∨ s.cpsr.mode = .sys) →
    exec (.stmUser c p u w rn list) s = .refused .userBankMode)

/-- Where a block transfer does not complete. R308, R35: one that wraps past the top of the address space is refused, before any abort
(log entry 16); R301, R87: one at a misaligned start is refused unless every word of it is aborted (log entry 29); R309: else one of
which some word is aborted takes the Data Abort with the base as the write-back says; an aborted store leaves the aborted words' bytes,
an aborted load changes no memory and no register but those it loads and R14_abt (which is the exception's), and the CPSR is not
restored. -/
def Obligations.BlockAbort : Prop :=
  ∀ (i : Instr) (s : State) (b : Block) (write : Bool),
    (if write then blockStoreOf s i else blockLoadOf s i) = some b → executes i s = true → bankOk i s = true →
    (b.wraps = true → exec i s = .refused .blockWraps) ∧
    (b.wraps = false → wordAligned b.start = false → b.abortsAll s write = false → exec i s = .refused .misalignedData) ∧
    (b.wraps = false → (wordAligned b.start = true ∨ b.abortsAll s write = true) → b.aborts s write = true →
    ∃ t, exec i s = .next t ∧ TookDataAbort s t ∧
      (∀ p, bank s.cpsr.mode b.rn = some p → p ≠ .r14Abt → t.regs.get p = (writeBack s b.rn b.wb).regs.get p) ∧
      (∀ p, p ≠ .r14Abt → (write = true ∨ ∀ r ∈ b.regs, bank b.mode r ≠ some p) →
        t.regs.get p = (writeBack s b.rn b.wb).regs.get p) ∧
      (write = false → t.mem = s.mem) ∧
      (write = true → ∀ k a, k < b.regs.length →
        s.env.aborts (b.addr k) .word .data s.cpsr.mode.privileged true = true → outside a (b.addr k) 4 = false →
        t.mem.read a = s.mem.read a))

/-- R310, R311: SWP and SWPB exchange: Rd takes the old contents (of a device region, 92 D4 and log entry 6, a free value), RAM the old
Rm (so Rd may be Rm), in a read and a write with LOCK HIGH; an aborted read or write takes the Data Abort with Rd and memory unchanged,
an aborted read making no write; R87: at a misaligned address that is not aborted it is refused. -/
def Obligations.Swap : Prop :=
  ∀ (i : Instr) (s : State) (size : Size) (rn rd rm : Reg),
    swapOf i = some (size, rn, rd, rm) → executes i s = true →
    (accessible s (readReg s rn) size s.cpsr.mode.privileged false = true →
      accessible s (readReg s rn) size s.cpsr.mode.privileged true = true → room s = true →
      exec i s = .next (past s
        { (if isMemory s (readReg s rn) then writeReg s rd (memRead s.env.bigEndian s.mem (readReg s rn) size)
            else { writeReg s rd (sizeMask (Config.freeWord s.draws) size) with draws := s.draws + 1 }) with
          mem := if isRam s (readReg s rn) then memWrite s.env.bigEndian s.mem (readReg s rn) (readReg s rm) size else s.mem
          bus := s.bus ++ [dataAccess s (readReg s rn) size s.cpsr.mode.privileged false true none,
            dataAccess s (readReg s rn) size s.cpsr.mode.privileged true true (some (lanes (readReg s rm) size))] })) ∧
    (s.env.aborts (readReg s rn) size .data s.cpsr.mode.privileged false = false → misaligned (readReg s rn) size = true →
      exec i s = .refused .misalignedData) ∧
    (s.env.aborts (readReg s rn) size .data s.cpsr.mode.privileged false = true →
      ∃ t, exec i s = .next t ∧ TookDataAbort s t ∧ t.mem = s.mem ∧
        t.bus = s.bus ++ [dataAccess s (readReg s rn) size s.cpsr.mode.privileged false true none] ∧
        (∀ p, p ≠ .r14Abt → t.regs.get p = s.regs.get p)) ∧
    (accessible s (readReg s rn) size s.cpsr.mode.privileged false = true →
      s.env.aborts (readReg s rn) size .data s.cpsr.mode.privileged true = true →
      ∃ t, exec i s = .next t ∧ TookDataAbort s t ∧ t.mem = s.mem ∧ (∀ p, p ≠ .r14Abt → t.regs.get p = s.regs.get p))

/-! ## Branches (40_arm_branch, 49_thumb_branch, 47_thumb_alu R379) -/

/-- R191, R192: B and BL go to pc + 8 + imm24 * 4 (signed, modulo 2^32); BL leaves pc + 4 in R14 of the current mode; nothing else
changes. -/
def Obligations.ArmBranch : Prop :=
  ∀ (c : Cond) (off : BitVec 24) (s : State), s.cpsr.t = false → condPassed c s.cpsr = true →
    exec (.b c off) s = .next (goTo (s.pc + 8 + BitVec.ofInt 32 (4 * off.toInt)) s) ∧
    exec (.bl c off) s = .next (goTo (s.pc + 8 + BitVec.ofInt 32 (4 * off.toInt)) (writeReg s 14 (s.pc + 4)))

/-- R194, R379: BX in either state: bit 0 of the register is the new T and is cleared in the pc; ARM state at an address whose bits
[1:0] are 10 is refused. Nothing else changes. -/
def Obligations.BranchExchange : Prop :=
  ∀ (i : Instr) (s : State) (t : Word), bxOf s i = some t → executes i s = true →
    (t.getLsbD 0 = true → exec i s = .next (goTo (t &&& 0xFFFFFFFE) { s with cpsr := { s.cpsr with t := true } })) ∧
    (t.extractLsb' 0 2 = 0b00#2 → exec i s = .next (goTo t { s with cpsr := { s.cpsr with t := false } })) ∧
    (t.extractLsb' 0 2 = 0b10#2 → exec i s = .refused .unalignedTarget)

/-- R441, R444: the fourteen conditional branches go to pc + 4 + imm8 * 2 (signed) where the condition passes and to pc + 2 where it
fails (refused at the top of the address space: R35, log entry 15); B goes to pc + 4 + imm11 * 2. Nothing else changes. -/
def Obligations.ThumbBranches : Prop :=
  ∀ s : State, s.cpsr.t = true →
    (∀ (i : Instr) (c : Cond) (off : BitVec 8), condBranchOf i = some (c, off) →
      (condPassed c s.cpsr = true → exec i s = .next (goTo (s.pc + 4 + BitVec.ofInt 32 (2 * off.toInt)) s)) ∧
      (condPassed c s.cpsr = false → room s = true → exec i s = .next { s with pc := s.pc + 2 }) ∧
      (condPassed c s.cpsr = false → room s = false → exec i s = .refused .runOffTop)) ∧
    (∀ off : BitVec 11, exec (.tB off) s = .next (goTo (s.pc + 4 + BitVec.ofInt 32 (2 * off.toInt)) s))

/-- R445 to R447: each half of BL on its own, and the pair: R14 = (A + 4) OR 1 and the pc is A + 4 plus the 23-bit signed offset the
two halves carry. -/
def Obligations.ThumbLongBranch : Prop :=
  ∀ s : State, s.cpsr.t = true →
    (∀ off : BitVec 11, room s = true →
      exec (.tBlHi off) s = .next (past s (writeReg s 14 (s.pc + 4 + BitVec.ofInt 32 (4096 * off.toInt))))) ∧
    (∀ off : BitVec 11,
      exec (.tBlLo off) s = .next (goTo ((readReg s 14 + BitVec.ofNat 32 (2 * off.toNat)) &&& 0xFFFFFFFE)
        (writeReg s 14 ((s.pc + 2) ||| 1)))) ∧
    (∀ hiOff loOff : BitVec 11, room s = true → pcAligned s = true →
      ∃ u v, exec (.tBlHi hiOff) s = .next u ∧ exec (.tBlLo loOff) u = .next v ∧
        v.pc = s.pc + 4 + BitVec.ofInt 32 (2 * (hiOff ++ loOff).toInt) ∧ readReg v 14 = ((s.pc + 4) ||| 1) ∧
        v.cpsr = s.cpsr ∧ v.mem = s.mem)

/-! ## Thumb data processing and address generation (47_thumb_alu, 48_thumb_load_store) -/

/-- Thumb formats 1 to 4 but MUL, and the format 5 CMP: Rd takes the result and the flags are always set; a compare writes no
register. -/
def Obligations.ThumbDataProcessing : Prop :=
  ∀ (i : Instr) (s : State) (op : AluOp) (rd : Reg) (a : Word) (o : Shifted),
    thumbDp s i = some (op, rd, a, o) → executes i s = true → room s = true →
    exec i s = .next (past s
      { (if compares op then s else writeReg s rd (dpResult op a o.value s.cpsr.c)) with cpsr := dpFlags op a o s.cpsr })

/-- R340: a Thumb instruction of formats 1 to 4, 12 (SP) and 13 does to the whole state what its ARM equivalent with cond = AL does in
ARM state, but for the instruction's length. -/
def Obligations.ThumbArmEquivalent : Prop :=
  ∀ (i j : Instr) (s u : State), armEquivalent i = some j → s.cpsr.t = true → s.pc.toNat + 4 < 2 ^ 32 →
    exec j { s with cpsr := { s.cpsr with t := false } } = .next u →
    exec i s = .next { u with pc := s.pc + 2, cpsr := { u.cpsr with t := true } }

/-- R376, R378, R420 to R423: the format 5 ADD and MOV, and the address generation of formats 12 and 13 (ADD Rd, PC reads bit 1 of the PC
as 0), write the destination and no flag; ADD or MOV with R15 as the destination branches with bit 0 cleared and stays in Thumb state. -/
def Obligations.ThumbRegisterWrites : Prop :=
  ∀ (i : Instr) (s : State) (rd : Reg) (v : Word),
    (highOf s i = some (rd, v) ∨ thumbAddressOf s i = some (rd, v)) → executes i s = true →
    (rd ≠ 15 → room s = true → exec i s = .next (past s (writeReg s rd v))) ∧
    (rd = 15 → exec i s = .next (goTo (v &&& 0xFFFFFFFE) s))

/-! ## Restrictions -/

/-- The instructions that break a restriction of their own rule are those that R194, R206, R241, R242, R258, R273, R274, R285, R304, R306,
R308, R312, R329, R365, R377 and R424 to R427 describe, spelled out in Sys2Proof/Claims/Restrictions.lean (LDRT and STRT of R15 are log
entry 28); each is refused when its condition passes (log entry 14), under the kind of restriction (the model's names, log entry 17).
R35: an instruction with only the next one to go on to is refused at the top of the address space, where nothing else stops it (at the
instruction that would advance past it: log entry 15). -/
def Obligations.RestrictionsRefused : Prop :=
  (∀ i : Instr, i.broken.isSome = breaksRule i) ∧
  (∀ (i : Instr) (s : State) (why : Restriction),
    i.broken = some why → condPassed (condOf i) s.cpsr = true → exec i s = .refused (.operands why)) ∧
  (∀ (i : Instr) (s : State), breaksRule i = true → condPassed (condOf i) s.cpsr = true →
    ∃ why, exec i s = .refused (.operands why)) ∧
  (∀ (i : Instr) (s : State), executes i s = true → writesPc i = false → unobstructed i s = true → room s = false →
    exec i s = .refused .runOffTop)

/-! ## Exceptions (60_exceptions, 70_reset_and_hazards) -/

/-- R468, R466: entry: R14 and the SPSR of the mode entered, M, T = 0, I = 1, F = 1 for FIQ only, the pc at the vector; N, Z, C, V, the
reserved bits, every other register and SPSR, and memory are as they were. -/
def Obligations.ExceptionEntry : Prop :=
  ∀ (e : Exc) (ret : Word) (s : State),
    (enterException e ret s).regs.get (lrOf e.mode) = ret ∧
    (∀ p, p ≠ lrOf e.mode → (enterException e ret s).regs.get p = s.regs.get p) ∧
    (enterException e ret s).spsrs.get e.mode = some s.cpsr.toWord ∧
    (∀ m, m ≠ e.mode → (enterException e ret s).spsrs.get m = s.spsrs.get m) ∧
    (enterException e ret s).cpsr =
      { s.cpsr with mode := e.mode, t := false, i := true, f := if e = .fiq then true else s.cpsr.f } ∧
    (enterException e ret s).pc = (match e with
      | .undefined => 0x00000004
      | .swi => 0x00000008
      | .prefetchAbort => 0x0000000C
      | .dataAbort => 0x00000010
      | .irq => 0x00000018
      | .fiq => 0x0000001C) ∧
    e.mode = (match e with
      | .undefined => .und
      | .swi => .svc
      | .prefetchAbort => .abt
      | .dataAbort => .abt
      | .irq => .irq
      | .fiq => .fiq) ∧
    (enterException e ret s).mem = s.mem ∧ (enterException e ret s).pipe = Pipe.empty

/-- R321, R443, R330, R324: SWI in both states, the undefined instruction, and every coprocessor instruction but CP# 14 take their
exception, and that is all their effect; R14 of the mode is pc + 4 from ARM state and pc + 2 from Thumb state. -/
def Obligations.Traps : Prop :=
  ∀ (i : Instr) (s : State) (e : Exc), trapOf i = some e → executes i s = true →
    ∃ t, exec i s = .next t ∧
      t.regs.get (lrOf e.mode) = s.pc + (if s.cpsr.t then 2 else 4) ∧ t.spsrs.get e.mode = some s.cpsr.toWord ∧
      t.cpsr = { s.cpsr with mode := e.mode, t := false, i := true } ∧
      t.pc = (if e = .swi then 0x00000008 else 0x00000004) ∧
      (∀ p, p ≠ lrOf e.mode → t.regs.get p = s.regs.get p) ∧ (∀ m, m ≠ e.mode → t.spsrs.get m = s.spsrs.get m) ∧
      t.mem = s.mem ∧ t.bus = s.bus

/-- R469: the return instruction of each row of the table, run in the state the entry leaves, goes back where the row says with the old
CPSR: MOVS PC, R14 after a SWI or an Undefined Instruction; SUBS PC, R14, #4 after a Prefetch Abort, an IRQ or a FIQ; SUBS PC, R14, #8
(retry) or #4 (skip) after a Data Abort. From ARM state or Thumb state alike. -/
def Obligations.ReturnRoundTrip : Prop :=
  ∀ s : State, pcAligned s = true →
    (∀ e, (e = .swi ∨ e = .undefined) →
      ∃ u, exec (.movShImm .al true 15 ⟨0, .lsl, 14⟩) (takeTrap e s) = .next u ∧
        u.pc = s.pc + (if s.cpsr.t then 2 else 4) ∧ u.cpsr = s.cpsr) ∧
    (∀ e, (e = .prefetchAbort ∨ e = .irq ∨ e = .fiq) →
      ∃ u, exec (.subImm .al true 14 15 ⟨0, 4⟩) (takeBefore e s) = .next u ∧ u.pc = s.pc ∧ u.cpsr = s.cpsr) ∧
    (∃ u, exec (.subImm .al true 14 15 ⟨0, 8⟩) (takeDataAbort s) = .next u ∧ u.pc = s.pc ∧ u.cpsr = s.cpsr) ∧
    (∃ u, exec (.subImm .al true 14 15 ⟨0, 4⟩) (takeDataAbort s) = .next u ∧ u.pc = s.pc + 4 ∧ u.cpsr = s.cpsr)

/-- R479, R470, R473: what a step does before any instruction: Reset first, then FIQ with F = 0, then IRQ with I = 0, each with R14 = pc + 4
(Reset: not defined); then, where the fetch is aborted, the Prefetch Abort with R14_abt = pc + 4, whatever the word there is. (A reset
that falls into the step itself is ResetLeaves.) -/
def Obligations.BoundaryOrder : Prop :=
  ∀ s : State,
    ((lines s).nRESET = false → step s = .next (takeReset (beginStep s))) ∧
    ((lines s).resetAfter = none →
      ((lines s).nRESET = true → (lines s).nFIQ = false → s.cpsr.f = false →
        step s = .next (enterException .fiq (s.pc + 4) (beginStep s))) ∧
      ((lines s).nRESET = true → ((lines s).nFIQ = true ∨ s.cpsr.f = true) → (lines s).nIRQ = false → s.cpsr.i = false →
        step s = .next (enterException .irq (s.pc + 4) (beginStep s))) ∧
      ((lines s).nRESET = true → ((lines s).nFIQ = true ∨ s.cpsr.f = true) → ((lines s).nIRQ = true ∨ s.cpsr.i = true) →
        pcAligned s = true → fetchAborts s = true →
        ∃ t, step s = .next t ∧ t.regs = s.regs.set .r14Abt (s.pc + 4) ∧ t.spsrs.abt = s.cpsr.toWord ∧
          t.cpsr = { s.cpsr with mode := .abt, t := false, i := true } ∧ t.pc = 0x0000000C ∧ t.mem = s.mem))

/-- R522, R60: what a reset leaves: Supervisor mode, I = F = 1, ARM state, pc 0, an empty pipeline, and everything else as it was but
R14_svc and SPSR_svc, which take some value; the model's first state is such a state. A reset in the middle of a step that would
have ended in `t` abandons it: each register, each SPSR and the flags are as before the step or as in `t`, any of them (log entry 34),
and memory has what the accesses made before it stored, a block store's words being stored in ascending order (R305). -/
def Obligations.ResetLeaves : Prop :=
  AfterReset State.reset ∧
  (∀ s : State, AfterReset (takeReset s) ∧
    (∀ p, p ≠ .r14Svc → (takeReset s).regs.get p = s.regs.get p) ∧
    (∀ m, m ≠ .svc → (takeReset s).spsrs.get m = s.spsrs.get m) ∧
    (takeReset s).cpsr = { s.cpsr with mode := .svc, i := true, f := true, t := false } ∧
    (takeReset s).mem = s.mem ∧ (takeReset s).env = s.env) ∧
  (∀ (s t : State) (n : Nat),
    (lines s).nRESET = true → (lines s).resetAfter = some n → wholeStep s = .next t →
    ∃ u, step s = .next u ∧ AfterReset u ∧ u.env = s.env ∧
      (∀ p, p ≠ .r14Svc → u.regs.get p = s.regs.get p ∨ u.regs.get p = t.regs.get p) ∧
      (∀ m, m ≠ .svc → u.spsrs.get m = s.spsrs.get m ∨ u.spsrs.get m = t.spsrs.get m) ∧
      (u.cpsr = { s.cpsr with mode := .svc, i := true, f := true, t := false } ∨
        u.cpsr = { t.cpsr with mode := .svc, i := true, f := true, t := false }) ∧
      (∀ v, fetch s = .taken v → u.mem = s.mem) ∧
      (∀ i v, fetch s = .run i v →
        (storesMem i v = false → u.mem = s.mem) ∧
        (∀ x, storeOf v i = some x → u.mem = (if n = 0 then s.mem else t.mem)) ∧
        (∀ x, swapOf i = some x → u.mem = (if n ≤ 1 then s.mem else t.mem)) ∧
        (∀ b, blockStoreOf v i = some b →
          (∀ k a, k < b.regs.length → outside a (b.addr k) 4 = false →
            u.mem.read a = (if k < n then t.mem.read a else s.mem.read a)) ∧
          (∀ a, outside a b.start (4 * b.regs.length) = true → u.mem.read a = s.mem.read a))))

/-! ## Registers and memory (10_state R23, 20_memory R79, R80) -/

/-- R23: which physical register x[i] is in each mode, and which SPSR: the table, row by row; the thirty are all different. -/
def Obligations.Banking : Prop :=
  (∀ (m : Mode) (r : Reg), r.toNat ≤ 7 →
    bank m r = [Phys.r0, .r1, .r2, .r3, .r4, .r5, .r6, .r7][r.toNat]?) ∧
  (∀ (m : Mode) (r : Reg), 8 ≤ r.toNat → r.toNat ≤ 12 →
    bank m r = (if m = .fiq then [Phys.r8Fiq, .r9Fiq, .r10Fiq, .r11Fiq, .r12Fiq][r.toNat - 8]?
      else [Phys.r8, .r9, .r10, .r11, .r12][r.toNat - 8]?)) ∧
  (bank .usr 13 = some .r13 ∧ bank .sys 13 = some .r13 ∧ bank .fiq 13 = some .r13Fiq ∧ bank .irq 13 = some .r13Irq ∧
    bank .svc 13 = some .r13Svc ∧ bank .abt 13 = some .r13Abt ∧ bank .und 13 = some .r13Und) ∧
  (bank .usr 14 = some .r14 ∧ bank .sys 14 = some .r14 ∧ bank .fiq 14 = some .r14Fiq ∧ bank .irq 14 = some .r14Irq ∧
    bank .svc 14 = some .r14Svc ∧ bank .abt 14 = some .r14Abt ∧ bank .und 14 = some .r14Und) ∧
  (∀ m : Mode, bank m 15 = none) ∧
  (∀ q : Spsrs, q.get .usr = none ∧ q.get .sys = none ∧ q.get .fiq = some q.fiq ∧ q.get .irq = some q.irq ∧
    q.get .svc = some q.svc ∧ q.get .abt = some q.abt ∧ q.get .und = some q.und) ∧
  (∀ (g : Regs) (p q : Phys) (v : Word), (g.set p v).get q = if q = p then v else g.get q)

/-- R79, R80: a read and a write of each size in each byte order, byte by byte; every byte a write does not name is as it was, and
memory stays in its canonical form (log entry 3); and a read sees the most recent write (R82, R124). -/
def Obligations.MemoryBytes : Prop :=
  ∀ (m : Memory) (a v : Word) (size : Size),
    misaligned a size = false →
    -- little-endian: byte k in bits [8k + 7 : 8k]
    (∀ k, k < size.bytes → (memRead false m a size).extractLsb' (8 * k) 8 = m.read (a.toNat + k)) ∧
    (∀ k, k < size.bytes → (memWrite false m a v size).read (a.toNat + k) = v.extractLsb' (8 * k) 8) ∧
    -- big-endian: byte k in bits [8(n - 1 - k) + 7 : 8(n - 1 - k)]
    (∀ k, k < size.bytes →
      (memRead true m a size).extractLsb' (8 * (size.bytes - 1 - k)) 8 = m.read (a.toNat + k)) ∧
    (∀ k, k < size.bytes →
      (memWrite true m a v size).read (a.toNat + k) = v.extractLsb' (8 * (size.bytes - 1 - k)) 8) ∧
    -- zero-extended
    (∀ big i, 8 * size.bytes ≤ i → (memRead big m a size).getLsbD i = false) ∧
    -- nothing else is written
    (∀ big b, outside b a size.bytes = true → (memWrite big m a v size).read b = m.read b) ∧
    (∀ big, m.wf = true → (memWrite big m a v size).wf = true) ∧
    -- what was written is read back
    (∀ big, memRead big (memWrite big m a v size) a size = BitVec.ofNat 32 (v.toNat % 2 ^ (8 * size.bytes)))

/-! ## Frames: what every instruction leaves unchanged -/

/-- Every register keeps its value but those the spec lets the instruction write: its destination, the base it writes back, the link
register of a BL, SP of PUSH and POP, R14 of the mode its exception enters; and R14_abt where it took a Data Abort. All 183. -/
def Obligations.FrameRegisters : Prop :=
  ∀ (i : Instr) (s t : State) (p : Phys), exec i s = .next t → mayWrite i s.cpsr.mode p = false →
    t.regs.get p = s.regs.get p ∨ (p = .r14Abt ∧ accesses i s = true ∧ TookDataAbort s t)

/-- Every flag keeps its value but those the spec names for the instruction, and the rest of the CPSR is unchanged but by a BX, an MSR to
the CPSR, a return, an instruction whose effect is an exception, and a Data Abort taken. All 183. -/
def Obligations.FrameCpsr : Prop :=
  ∀ (i : Instr) (s t : State), exec i s = .next t →
    ((flagsWritten i).n = false → t.cpsr.n = s.cpsr.n) ∧ ((flagsWritten i).z = false → t.cpsr.z = s.cpsr.z) ∧
    ((flagsWritten i).c = false → t.cpsr.c = s.cpsr.c) ∧ ((flagsWritten i).v = false → t.cpsr.v = s.cpsr.v) ∧
    (isBx i = false → isMsrCpsr i = false → isReturn i = false → trapOf i = none →
      sameControl t.cpsr s.cpsr = true ∨ (accesses i s = true ∧ TookDataAbort s t)) ∧
    (isBx i = true → t.cpsr = { s.cpsr with t := t.cpsr.t })

/-- The SPSRs keep their values but for an MSR to the SPSR of the current mode, the SPSR of the mode an exception enters, and SPSR_abt
where a Data Abort was taken; the platform and the input lines to come are never changed. All 183. -/
def Obligations.FrameSpecial : Prop :=
  ∀ (i : Instr) (s t : State), exec i s = .next t →
    t.env = s.env ∧ t.inputs = s.inputs ∧
    ∀ m : Mode, t.spsrs.get m = s.spsrs.get m ∨ (isMsrSpsr i = true ∧ m = s.cpsr.mode) ∨
      (∃ e, trapOf i = some e ∧ m = e.mode) ∨ (m = .abt ∧ accesses i s = true ∧ TookDataAbort s t)

/-- An instruction that stores nothing leaves every byte of memory as it was. -/
def Obligations.FrameMemory : Prop :=
  ∀ (i : Instr) (s t : State), exec i s = .next t → storesMem i s = false → ∀ a, t.mem.read a = s.mem.read a

/-- A store leaves every byte outside those it stores to as it was: a single store outside its `size` bytes at the address of its form, a
swap outside those at [Rn], a block store outside the 4n bytes from its start. -/
def Obligations.FrameStores : Prop :=
  ∀ (i : Instr) (s t : State), exec i s = .next t → ∀ a : Nat,
    (∀ x, storeOf s i = some x → outside a x.loc.addr x.kind.size.bytes = true → t.mem.read a = s.mem.read a) ∧
    (∀ size rn rd rm, swapOf i = some (size, rn, rd, rm) → outside a (readReg s rn) size.bytes = true →
      t.mem.read a = s.mem.read a) ∧
    (∀ b, blockStoreOf s i = some b → outside a b.start (4 * b.regs.length) = true → t.mem.read a = s.mem.read a)

/-! ## The step and the whole machine -/

/-- When no exception comes first, no reset falls into the step, and the word at the pc (read in the byte order and the size of the
state, from ordinary memory, and not changed since it was prefetched) decodes to an instruction, the step is exec of that instruction,
in the state with the boundary's input consumed, the fetch on the bus and the next two slots prefetched. -/
def Obligations.StepRuns : Prop :=
  ∀ (s : State) (i : Instr) (w : Word),
    boundary (lines s) s = none → (lines s).resetAfter = none → pcAligned s = true → fetchAborts s = false → isMemory s s.pc = true →
    w = memRead s.env.bigEndian s.mem s.pc (if s.cpsr.t then .half else .word) →
    (s.pipe.first = none ∨ s.pipe.first = some w) →
    (if s.cpsr.t then decodeThumb (w.setWidth 16) else decodeArm w) = .ok i →
    (s.userLdm = false ∨ usesBanked i s.cpsr = false) →
    step s = exec i (ready (record (beginStep s) (fetchAccess s)))

/-- R128, R314: a slot whose contents changed while it was prefetched runs with its old or its new contents, as a free bit says (log entry
11); after a User-bank LDM an instruction that uses a banked register is refused (log entry 13), whether its slot was prefetched, read
now, or is such a race; and a step leaves that hazard behind it exactly when it ran an LDM of the User bank to its end. -/
def Obligations.Hazards : Prop :=
  (∀ (s : State) (new : Word),
    boundary (lines s) s = none → (lines s).resetAfter = none → pcAligned s = true → fetchAborts s = false →
    isMemory s s.pc = true → new = memRead s.env.bigEndian s.mem s.pc (if s.cpsr.t then .half else .word) →
    (∀ (old : Word) (i j : Instr), s.pipe.first = some old → old ≠ new →
      decodeFetched s.cpsr.t old = .ok i → decodeFetched s.cpsr.t new = .ok j →
      (s.userLdm = false → step s = exec (if Config.freeBit s.draws then i else j)
        { ready (record (beginStep s) (fetchAccess s)) with draws := s.draws + 1 }) ∧
      (s.userLdm = true → usesBanked (if Config.freeBit s.draws then i else j) s.cpsr = true →
        step s = .refused .bankedAfterUserLdm)) ∧
    (∀ i : Instr, (s.pipe.first = none ∨ s.pipe.first = some new) → decodeFetched s.cpsr.t new = .ok i → s.userLdm = true →
      usesBanked i s.cpsr = true → step s = .refused .bankedAfterUserLdm)) ∧
  (∀ s t : State, (lines s).resetAfter = none → step s = .next t →
    (t.userLdm = true ↔ ∃ i u b, fetch s = .run i u ∧ isUserLoad i = true ∧ executes i u = true ∧ blockLoadOf u i = some b ∧
      b.aborts u false = false))

/-- Memory in its canonical form (the model's own choice: log entry 3, DESIGN CHOICE) and the pc aligned for the state hold at reset. -/
def Obligations.InvAtReset : Prop := Inv State.reset

/-- Every step, a step that a reset abandons too, keeps memory in its canonical form, with every address inside the 32-bit space (that
form is the model's own choice: log entry 3, DESIGN CHOICE), and the pc aligned for the state (20_memory R86, R88, 10_state R33, R34),
from every state that has them. -/
def Obligations.InvKept : Prop := ∀ s t : State, Inv s → step s = .next t → Inv t

/-- R42, R491, R492: a step from User mode leaves the mode, I, F, every SPSR and every register of a privileged mode's bank as they
were, unless it is an exception entry (into the exception's mode at its vector, with the User CPSR saved) or a reset. -/
def Obligations.UserModeConfined : Prop :=
  ∀ s t : State, s.cpsr.mode = .usr → step s = .next t →
    (t.cpsr.mode = .usr ∧ t.cpsr.i = s.cpsr.i ∧ t.cpsr.f = s.cpsr.f ∧ t.spsrs = s.spsrs ∧
      (∀ p, (∀ r, bank .usr r ≠ some p) → t.regs.get p = s.regs.get p)) ∨
    (∃ e : Exc, t.cpsr.mode = e.mode ∧ t.cpsr.i = true ∧ t.cpsr.t = false ∧ t.pc = e.vector ∧
      t.spsrs.get e.mode = some s.cpsr.toWord ∧
      (∀ p, (∀ r, bank .usr r ≠ some p) → p ≠ lrOf e.mode → t.regs.get p = s.regs.get p)) ∨
    (((lines s).nRESET = false ∨ (lines s).resetAfter.isSome = true) ∧ AfterReset t)

/-- R41: T is changed only by BX, by an exception entry or a reset (which clear it), and by an exception return (which restores it from the
SPSR). -/
def Obligations.StateChanges : Prop :=
  ∀ s t : State, step s = .next t → t.cpsr.t ≠ s.cpsr.t →
    (t.cpsr.t = false ∧ ∃ e : Exc, t.cpsr.mode = e.mode ∧ t.pc = e.vector ∧ t.spsrs.get e.mode = some s.cpsr.toWord) ∨
    (t.cpsr.t = false ∧ AfterReset t ∧ ((lines s).nRESET = false ∨ (lines s).resetAfter.isSome = true)) ∨
    (∃ i u, fetch s = .run i u ∧ exec i u = .next t ∧
      (isBx i = true ∨ (isReturn i = true ∧ s.spsrs.get s.cpsr.mode = some t.cpsr.toWord)))
end

