-- ==== Sys2Proof/Laws/Bits.lean ====
section
/-! SUPPORT. Bit-level facts of the helpers: fields of a concatenation, rotation, alignment masks. -/

set_option Elab.async false

namespace Sys2Proof.Machine

/-- Bit i of a rotation right by n < 32: bit i + n, counted around 32 bits. -/
theorem getLsbD_ror (v : Word) {n i : Nat} (hn : n < 32) (hi : i < 32) : (ror v n).getLsbD i = v.getLsbD ((i + n) % 32) := by
  simp only [ror, BitVec.getLsbD_or, BitVec.getLsbD_ushiftRight, BitVec.getLsbD_shiftLeft]
  by_cases h : i + n < 32
  · rw [Nat.mod_eq_of_lt h, Nat.add_comm n i]
    have : i < 32 - n := by omega
    simp [this]
  · have hmod : (i + n) % 32 = i + n - 32 := by omega
    have hlt : ¬ i < 32 - n := by omega
    have hge : v.getLsbD (n + i) = false := BitVec.getLsbD_of_ge v _ (by omega)
    rw [hmod, hge]
    have : i - (32 - n) = i + n - 32 := by omega
    simp [hlt, hi, this]

theorem wordAligned_iff (v : Word) : wordAligned v = true ↔ v.toNat % 4 = 0 := by
  simp only [wordAligned, beq_iff_eq, ← BitVec.toNat_inj, BitVec.extractLsb'_toNat, Nat.shiftRight_zero]
  simp

theorem halfAligned_iff (v : Word) : halfAligned v = true ↔ v.toNat % 2 = 0 := by
  simp only [halfAligned, beq_iff_eq, ← BitVec.toNat_inj, BitVec.extractLsb'_toNat, Nat.shiftRight_zero]
  simp

@[simp] theorem wordAligned_wordMask (v : Word) : wordAligned (wordMask v) = true := by
  simp only [wordAligned, wordMask, beq_iff_eq]
  apply BitVec.eq_of_getLsbD_eq
  intro i hi
  simp only [BitVec.getLsbD_extractLsb', BitVec.getLsbD_and, Nat.zero_add]
  have : i = 0 ∨ i = 1 := by omega
  rcases this with rfl | rfl <;> simp

@[simp] theorem halfAligned_halfMask (v : Word) : halfAligned (halfMask v) = true := by
  simp only [halfAligned, halfMask, beq_iff_eq]
  apply BitVec.eq_of_getLsbD_eq
  intro i hi
  simp only [BitVec.getLsbD_extractLsb', BitVec.getLsbD_and, Nat.zero_add]
  have : i = 0 := by omega
  subst this
  simp

theorem toNat_wordMask (v : Word) : (wordMask v).toNat = v.toNat / 4 * 4 := by
  have h : wordMask v = (v >>> 2) <<< 2 := by
    apply BitVec.eq_of_getLsbD_eq
    intro i hi
    simp only [wordMask, BitVec.getLsbD_and, BitVec.getLsbD_shiftLeft, BitVec.getLsbD_ushiftRight]
    interval_cases i <;> simp
  rw [h, BitVec.toNat_shiftLeft, BitVec.toNat_ushiftRight, Nat.shiftRight_eq_div_pow, Nat.shiftLeft_eq]
  have := v.isLt
  omega

theorem toNat_halfMask (v : Word) : (halfMask v).toNat = v.toNat / 2 * 2 := by
  have h : halfMask v = (v >>> 1) <<< 1 := by
    apply BitVec.eq_of_getLsbD_eq
    intro i hi
    simp only [halfMask, BitVec.getLsbD_and, BitVec.getLsbD_shiftLeft, BitVec.getLsbD_ushiftRight]
    interval_cases i <;> simp
  rw [h, BitVec.toNat_shiftLeft, BitVec.toNat_ushiftRight, Nat.shiftRight_eq_div_pow, Nat.shiftLeft_eq]
  have := v.isLt
  omega

/-- An aligned address is its own mask. -/
theorem wordMask_of_aligned {v : Word} (h : wordAligned v = true) : wordMask v = v := by
  rw [wordAligned_iff] at h
  apply BitVec.eq_of_toNat_eq
  rw [toNat_wordMask]
  omega

theorem halfMask_of_aligned {v : Word} (h : halfAligned v = true) : halfMask v = v := by
  rw [halfAligned_iff] at h
  apply BitVec.eq_of_toNat_eq
  rw [toNat_halfMask]
  omega

/-- A branch offset is the signed field times a power of two. -/
theorem branchOffset_eq {n : Nat} (off : BitVec n) (k : Nat) : branchOffset off k = BitVec.ofInt 32 (2 ^ k * off.toInt) := by
  apply BitVec.eq_of_toInt_eq
  simp only [branchOffset, BitVec.toInt_ofInt, BitVec.toInt_shiftLeft, BitVec.signExtend]
  rw [Nat.shiftLeft_eq]
  have h : ((BitVec.ofInt 32 off.toInt).toNat : Int) = off.toInt % 2 ^ 32 := by
    simp only [BitVec.toNat_ofInt]
    exact Int.toNat_of_nonneg (Int.emod_nonneg _ (by norm_num))
  rw [Int.bmod_eq_bmod_iff_bmod_sub_eq_zero]
  push_cast
  rw [h]
  apply Int.bmod_eq_zero_of_dvd
  have : (off.toInt % 2 ^ 32) = off.toInt - 2 ^ 32 * (off.toInt / 2 ^ 32) := by
    have := Int.emod_add_mul_ediv off.toInt (2 ^ 32)
    omega
  rw [this]
  exact ⟨-(off.toInt / 2 ^ 32) * 2 ^ k, by push_cast; ring⟩

end Sys2Proof.Machine
end

