-- ==== Sys2Proof/Laws/State.lean ====
section
/-! SUPPORT. Each field of the state after each named operation: the simp lemmas that let a proof step through a meaning without
unfolding a record update. -/

set_option Elab.async false

namespace Sys2Proof.Machine

/-! ## Writing registers: only `regs` changes -/

@[simp] theorem writeBank_pc (s : State) (m : Mode) (r : Reg) (v : Word) : (writeBank s m r v).pc = s.pc := by
  unfold writeBank; split <;> rfl

@[simp] theorem writeBank_cpsr (s : State) (m : Mode) (r : Reg) (v : Word) : (writeBank s m r v).cpsr = s.cpsr := by
  unfold writeBank; split <;> rfl

@[simp] theorem writeBank_spsrs (s : State) (m : Mode) (r : Reg) (v : Word) : (writeBank s m r v).spsrs = s.spsrs := by
  unfold writeBank; split <;> rfl

@[simp] theorem writeBank_mem (s : State) (m : Mode) (r : Reg) (v : Word) : (writeBank s m r v).mem = s.mem := by
  unfold writeBank; split <;> rfl

@[simp] theorem writeBank_pipe (s : State) (m : Mode) (r : Reg) (v : Word) : (writeBank s m r v).pipe = s.pipe := by
  unfold writeBank; split <;> rfl

@[simp] theorem writeBank_userLdm (s : State) (m : Mode) (r : Reg) (v : Word) : (writeBank s m r v).userLdm = s.userLdm := by
  unfold writeBank; split <;> rfl

@[simp] theorem writeBank_bus (s : State) (m : Mode) (r : Reg) (v : Word) : (writeBank s m r v).bus = s.bus := by
  unfold writeBank; split <;> rfl

@[simp] theorem writeBank_env (s : State) (m : Mode) (r : Reg) (v : Word) : (writeBank s m r v).env = s.env := by
  unfold writeBank; split <;> rfl

@[simp] theorem writeBank_inputs (s : State) (m : Mode) (r : Reg) (v : Word) : (writeBank s m r v).inputs = s.inputs := by
  unfold writeBank; split <;> rfl

@[simp] theorem writeBank_draws (s : State) (m : Mode) (r : Reg) (v : Word) : (writeBank s m r v).draws = s.draws := by
  unfold writeBank; split <;> rfl

@[simp] theorem writeReg_pc (s : State) (r : Reg) (v : Word) : (writeReg s r v).pc = s.pc := writeBank_pc s _ r v

@[simp] theorem writeReg_cpsr (s : State) (r : Reg) (v : Word) : (writeReg s r v).cpsr = s.cpsr := writeBank_cpsr s _ r v

@[simp] theorem writeReg_spsrs (s : State) (r : Reg) (v : Word) : (writeReg s r v).spsrs = s.spsrs := writeBank_spsrs s _ r v

@[simp] theorem writeReg_mem (s : State) (r : Reg) (v : Word) : (writeReg s r v).mem = s.mem := writeBank_mem s _ r v

@[simp] theorem writeReg_pipe (s : State) (r : Reg) (v : Word) : (writeReg s r v).pipe = s.pipe := writeBank_pipe s _ r v

@[simp] theorem writeReg_userLdm (s : State) (r : Reg) (v : Word) : (writeReg s r v).userLdm = s.userLdm := writeBank_userLdm s _ r v

@[simp] theorem writeReg_bus (s : State) (r : Reg) (v : Word) : (writeReg s r v).bus = s.bus := writeBank_bus s _ r v

@[simp] theorem writeReg_env (s : State) (r : Reg) (v : Word) : (writeReg s r v).env = s.env := writeBank_env s _ r v

@[simp] theorem writeReg_inputs (s : State) (r : Reg) (v : Word) : (writeReg s r v).inputs = s.inputs := writeBank_inputs s _ r v

@[simp] theorem writeReg_draws (s : State) (r : Reg) (v : Word) : (writeReg s r v).draws = s.draws := writeBank_draws s _ r v

@[simp] theorem writeBack_pc (s : State) (r : Reg) (v : Option Word) : (writeBack s r v).pc = s.pc := by
  cases v <;> simp [writeBack]

@[simp] theorem writeBack_cpsr (s : State) (r : Reg) (v : Option Word) : (writeBack s r v).cpsr = s.cpsr := by
  cases v <;> simp [writeBack]

@[simp] theorem writeBack_spsrs (s : State) (r : Reg) (v : Option Word) : (writeBack s r v).spsrs = s.spsrs := by
  cases v <;> simp [writeBack]

@[simp] theorem writeBack_mem (s : State) (r : Reg) (v : Option Word) : (writeBack s r v).mem = s.mem := by
  cases v <;> simp [writeBack]

@[simp] theorem writeBack_pipe (s : State) (r : Reg) (v : Option Word) : (writeBack s r v).pipe = s.pipe := by
  cases v <;> simp [writeBack]

@[simp] theorem writeBack_userLdm (s : State) (r : Reg) (v : Option Word) : (writeBack s r v).userLdm = s.userLdm := by
  cases v <;> simp [writeBack]

@[simp] theorem writeBack_bus (s : State) (r : Reg) (v : Option Word) : (writeBack s r v).bus = s.bus := by
  cases v <;> simp [writeBack]

@[simp] theorem writeBack_env (s : State) (r : Reg) (v : Option Word) : (writeBack s r v).env = s.env := by
  cases v <;> simp [writeBack]

@[simp] theorem writeBack_inputs (s : State) (r : Reg) (v : Option Word) : (writeBack s r v).inputs = s.inputs := by
  cases v <;> simp [writeBack]

@[simp] theorem writeBack_draws (s : State) (r : Reg) (v : Option Word) : (writeBack s r v).draws = s.draws := by
  cases v <;> simp [writeBack]

/-! ## The pc, the bus, free values -/

@[simp] theorem branchTo_regs (t : Word) (s : State) : (branchTo t s).regs = s.regs := rfl

@[simp] theorem branchTo_pc (t : Word) (s : State) : (branchTo t s).pc = t := rfl

@[simp] theorem branchTo_cpsr (t : Word) (s : State) : (branchTo t s).cpsr = s.cpsr := rfl

@[simp] theorem branchTo_spsrs (t : Word) (s : State) : (branchTo t s).spsrs = s.spsrs := rfl

@[simp] theorem branchTo_mem (t : Word) (s : State) : (branchTo t s).mem = s.mem := rfl

@[simp] theorem branchTo_pipe (t : Word) (s : State) : (branchTo t s).pipe = Pipe.empty := rfl

@[simp] theorem branchTo_userLdm (t : Word) (s : State) : (branchTo t s).userLdm = s.userLdm := rfl

@[simp] theorem branchTo_bus (t : Word) (s : State) : (branchTo t s).bus = s.bus := rfl

@[simp] theorem branchTo_env (t : Word) (s : State) : (branchTo t s).env = s.env := rfl

@[simp] theorem branchTo_inputs (t : Word) (s : State) : (branchTo t s).inputs = s.inputs := rfl

@[simp] theorem branchTo_draws (t : Word) (s : State) : (branchTo t s).draws = s.draws := rfl

@[simp] theorem record_regs (s : State) (x : Access) : (record s x).regs = s.regs := rfl

@[simp] theorem record_pc (s : State) (x : Access) : (record s x).pc = s.pc := rfl

@[simp] theorem record_cpsr (s : State) (x : Access) : (record s x).cpsr = s.cpsr := rfl

@[simp] theorem record_spsrs (s : State) (x : Access) : (record s x).spsrs = s.spsrs := rfl

@[simp] theorem record_mem (s : State) (x : Access) : (record s x).mem = s.mem := rfl

@[simp] theorem record_pipe (s : State) (x : Access) : (record s x).pipe = s.pipe := rfl

@[simp] theorem record_userLdm (s : State) (x : Access) : (record s x).userLdm = s.userLdm := rfl

@[simp] theorem record_bus (s : State) (x : Access) : (record s x).bus = s.bus ++ [x] := rfl

@[simp] theorem record_env (s : State) (x : Access) : (record s x).env = s.env := rfl

@[simp] theorem record_inputs (s : State) (x : Access) : (record s x).inputs = s.inputs := rfl

@[simp] theorem record_draws (s : State) (x : Access) : (record s x).draws = s.draws := rfl

@[simp] theorem drawWord_regs (s : State) : ((drawWord s).2).regs = s.regs := rfl

@[simp] theorem drawWord_pc (s : State) : ((drawWord s).2).pc = s.pc := rfl

@[simp] theorem drawWord_cpsr (s : State) : ((drawWord s).2).cpsr = s.cpsr := rfl

@[simp] theorem drawWord_spsrs (s : State) : ((drawWord s).2).spsrs = s.spsrs := rfl

@[simp] theorem drawWord_mem (s : State) : ((drawWord s).2).mem = s.mem := rfl

@[simp] theorem drawWord_pipe (s : State) : ((drawWord s).2).pipe = s.pipe := rfl

@[simp] theorem drawWord_userLdm (s : State) : ((drawWord s).2).userLdm = s.userLdm := rfl

@[simp] theorem drawWord_bus (s : State) : ((drawWord s).2).bus = s.bus := rfl

@[simp] theorem drawWord_env (s : State) : ((drawWord s).2).env = s.env := rfl

@[simp] theorem drawWord_inputs (s : State) : ((drawWord s).2).inputs = s.inputs := rfl

@[simp] theorem drawWord_draws (s : State) : ((drawWord s).2).draws = s.draws + 1 := rfl

@[simp] theorem drawBit_regs (s : State) : ((drawBit s).2).regs = s.regs := rfl

@[simp] theorem drawBit_pc (s : State) : ((drawBit s).2).pc = s.pc := rfl

@[simp] theorem drawBit_cpsr (s : State) : ((drawBit s).2).cpsr = s.cpsr := rfl

@[simp] theorem drawBit_spsrs (s : State) : ((drawBit s).2).spsrs = s.spsrs := rfl

@[simp] theorem drawBit_mem (s : State) : ((drawBit s).2).mem = s.mem := rfl

@[simp] theorem drawBit_pipe (s : State) : ((drawBit s).2).pipe = s.pipe := rfl

@[simp] theorem drawBit_userLdm (s : State) : ((drawBit s).2).userLdm = s.userLdm := rfl

@[simp] theorem drawBit_bus (s : State) : ((drawBit s).2).bus = s.bus := rfl

@[simp] theorem drawBit_env (s : State) : ((drawBit s).2).env = s.env := rfl

@[simp] theorem drawBit_inputs (s : State) : ((drawBit s).2).inputs = s.inputs := rfl

@[simp] theorem drawBit_draws (s : State) : ((drawBit s).2).draws = s.draws + 1 := rfl

@[simp] theorem drawWord_value (s : State) : (drawWord s).1 = Config.freeWord s.draws := rfl

@[simp] theorem drawBit_value (s : State) : (drawBit s).1 = Config.freeBit s.draws := rfl

@[simp] theorem beginStep_regs (s : State) : (beginStep s).regs = s.regs := rfl

@[simp] theorem beginStep_pc (s : State) : (beginStep s).pc = s.pc := rfl

@[simp] theorem beginStep_cpsr (s : State) : (beginStep s).cpsr = s.cpsr := rfl

@[simp] theorem beginStep_spsrs (s : State) : (beginStep s).spsrs = s.spsrs := rfl

@[simp] theorem beginStep_mem (s : State) : (beginStep s).mem = s.mem := rfl

@[simp] theorem beginStep_pipe (s : State) : (beginStep s).pipe = s.pipe := rfl

@[simp] theorem beginStep_userLdm (s : State) : (beginStep s).userLdm = s.userLdm := rfl

@[simp] theorem beginStep_bus (s : State) : (beginStep s).bus = [] := rfl

@[simp] theorem beginStep_env (s : State) : (beginStep s).env = s.env := rfl

@[simp] theorem beginStep_inputs (s : State) : (beginStep s).inputs = s.inputs.tail := rfl

@[simp] theorem beginStep_draws (s : State) : (beginStep s).draws = s.draws := rfl

@[simp] theorem ready_regs (s : State) : (ready s).regs = s.regs := rfl

@[simp] theorem ready_pc (s : State) : (ready s).pc = s.pc := rfl

@[simp] theorem ready_cpsr (s : State) : (ready s).cpsr = s.cpsr := rfl

@[simp] theorem ready_spsrs (s : State) : (ready s).spsrs = s.spsrs := rfl

@[simp] theorem ready_mem (s : State) : (ready s).mem = s.mem := rfl

@[simp] theorem ready_pipe (s : State) : (ready s).pipe = prefetch s := rfl

@[simp] theorem ready_userLdm (s : State) : (ready s).userLdm = false := rfl

@[simp] theorem ready_bus (s : State) : (ready s).bus = s.bus := rfl

@[simp] theorem ready_env (s : State) : (ready s).env = s.env := rfl

@[simp] theorem ready_inputs (s : State) : (ready s).inputs = s.inputs := rfl

@[simp] theorem ready_draws (s : State) : (ready s).draws = s.draws := rfl

/-! ## Exceptions -/

@[simp] theorem enterException_regs (e : Exc) (ret : Word) (s : State) : (enterException e ret s).regs = s.regs.set (lrOf e.mode) ret := rfl

@[simp] theorem enterException_pc (e : Exc) (ret : Word) (s : State) : (enterException e ret s).pc = e.vector := rfl

@[simp] theorem enterException_cpsr (e : Exc) (ret : Word) (s : State) : (enterException e ret s).cpsr = entryPsr e s.cpsr := rfl

@[simp] theorem enterException_spsrs (e : Exc) (ret : Word) (s : State) : (enterException e ret s).spsrs = s.spsrs.set e.mode s.cpsr.toWord := rfl

@[simp] theorem enterException_mem (e : Exc) (ret : Word) (s : State) : (enterException e ret s).mem = s.mem := rfl

@[simp] theorem enterException_pipe (e : Exc) (ret : Word) (s : State) : (enterException e ret s).pipe = Pipe.empty := rfl

@[simp] theorem enterException_userLdm (e : Exc) (ret : Word) (s : State) : (enterException e ret s).userLdm = false := rfl

@[simp] theorem enterException_bus (e : Exc) (ret : Word) (s : State) : (enterException e ret s).bus = s.bus := rfl

@[simp] theorem enterException_env (e : Exc) (ret : Word) (s : State) : (enterException e ret s).env = s.env := rfl

@[simp] theorem enterException_inputs (e : Exc) (ret : Word) (s : State) : (enterException e ret s).inputs = s.inputs := rfl

@[simp] theorem enterException_draws (e : Exc) (ret : Word) (s : State) : (enterException e ret s).draws = s.draws := rfl

@[simp] theorem takeReset_regs (s : State) : (takeReset s).regs = s.regs.set .r14Svc (Config.freeWord s.draws) := rfl

@[simp] theorem takeReset_pc (s : State) : (takeReset s).pc = 0 := rfl

@[simp] theorem takeReset_cpsr (s : State) : (takeReset s).cpsr = { s.cpsr with mode := .svc, i := true, f := true, t := false } := rfl

@[simp] theorem takeReset_spsrs (s : State) : (takeReset s).spsrs = { s.spsrs with svc := Config.freeWord (s.draws + 1) } := rfl

@[simp] theorem takeReset_mem (s : State) : (takeReset s).mem = s.mem := rfl

@[simp] theorem takeReset_pipe (s : State) : (takeReset s).pipe = Pipe.empty := rfl

@[simp] theorem takeReset_userLdm (s : State) : (takeReset s).userLdm = false := rfl

@[simp] theorem takeReset_bus (s : State) : (takeReset s).bus = s.bus := rfl

@[simp] theorem takeReset_env (s : State) : (takeReset s).env = s.env := rfl

@[simp] theorem takeReset_inputs (s : State) : (takeReset s).inputs = s.inputs := rfl

@[simp] theorem takeReset_draws (s : State) : (takeReset s).draws = s.draws + 2 := rfl

/-! ## Memory: only `mem` changes on a write, only `draws` on a read -/

@[simp] theorem writeMem_regs (s : State) (a : Word) (size : Size) (v : Word) : (writeMem s a size v).regs = s.regs := by
  unfold writeMem; split <;> rfl

@[simp] theorem writeMem_pc (s : State) (a : Word) (size : Size) (v : Word) : (writeMem s a size v).pc = s.pc := by
  unfold writeMem; split <;> rfl

@[simp] theorem writeMem_cpsr (s : State) (a : Word) (size : Size) (v : Word) : (writeMem s a size v).cpsr = s.cpsr := by
  unfold writeMem; split <;> rfl

@[simp] theorem writeMem_spsrs (s : State) (a : Word) (size : Size) (v : Word) : (writeMem s a size v).spsrs = s.spsrs := by
  unfold writeMem; split <;> rfl

@[simp] theorem writeMem_pipe (s : State) (a : Word) (size : Size) (v : Word) : (writeMem s a size v).pipe = s.pipe := by
  unfold writeMem; split <;> rfl

@[simp] theorem writeMem_userLdm (s : State) (a : Word) (size : Size) (v : Word) : (writeMem s a size v).userLdm = s.userLdm := by
  unfold writeMem; split <;> rfl

@[simp] theorem writeMem_bus (s : State) (a : Word) (size : Size) (v : Word) : (writeMem s a size v).bus = s.bus := by
  unfold writeMem; split <;> rfl

@[simp] theorem writeMem_env (s : State) (a : Word) (size : Size) (v : Word) : (writeMem s a size v).env = s.env := by
  unfold writeMem; split <;> rfl

@[simp] theorem writeMem_inputs (s : State) (a : Word) (size : Size) (v : Word) : (writeMem s a size v).inputs = s.inputs := by
  unfold writeMem; split <;> rfl

@[simp] theorem writeMem_draws (s : State) (a : Word) (size : Size) (v : Word) : (writeMem s a size v).draws = s.draws := by
  unfold writeMem; split <;> rfl

@[simp] theorem readMem_regs (s : State) (a : Word) (size : Size) : (readMem s a size).2.regs = s.regs := by
  unfold readMem; split <;> rfl

@[simp] theorem readMem_pc (s : State) (a : Word) (size : Size) : (readMem s a size).2.pc = s.pc := by
  unfold readMem; split <;> rfl

@[simp] theorem readMem_cpsr (s : State) (a : Word) (size : Size) : (readMem s a size).2.cpsr = s.cpsr := by
  unfold readMem; split <;> rfl

@[simp] theorem readMem_spsrs (s : State) (a : Word) (size : Size) : (readMem s a size).2.spsrs = s.spsrs := by
  unfold readMem; split <;> rfl

@[simp] theorem readMem_mem (s : State) (a : Word) (size : Size) : (readMem s a size).2.mem = s.mem := by
  unfold readMem; split <;> rfl

@[simp] theorem readMem_pipe (s : State) (a : Word) (size : Size) : (readMem s a size).2.pipe = s.pipe := by
  unfold readMem; split <;> rfl

@[simp] theorem readMem_userLdm (s : State) (a : Word) (size : Size) : (readMem s a size).2.userLdm = s.userLdm := by
  unfold readMem; split <;> rfl

@[simp] theorem readMem_bus (s : State) (a : Word) (size : Size) : (readMem s a size).2.bus = s.bus := by
  unfold readMem; split <;> rfl

@[simp] theorem readMem_env (s : State) (a : Word) (size : Size) : (readMem s a size).2.env = s.env := by
  unfold readMem; split <;> rfl

@[simp] theorem readMem_inputs (s : State) (a : Word) (size : Size) : (readMem s a size).2.inputs = s.inputs := by
  unfold readMem; split <;> rfl

/-! ## Block operations -/

@[simp] theorem readWords_regs (s : State) (l : List Word) : (readWords s l).2.regs = s.regs := by
  induction l generalizing s with
  | nil => rfl
  | cons a l ih => simp [readWords, ih]

@[simp] theorem readWords_pc (s : State) (l : List Word) : (readWords s l).2.pc = s.pc := by
  induction l generalizing s with
  | nil => rfl
  | cons a l ih => simp [readWords, ih]

@[simp] theorem readWords_cpsr (s : State) (l : List Word) : (readWords s l).2.cpsr = s.cpsr := by
  induction l generalizing s with
  | nil => rfl
  | cons a l ih => simp [readWords, ih]

@[simp] theorem readWords_spsrs (s : State) (l : List Word) : (readWords s l).2.spsrs = s.spsrs := by
  induction l generalizing s with
  | nil => rfl
  | cons a l ih => simp [readWords, ih]

@[simp] theorem readWords_mem (s : State) (l : List Word) : (readWords s l).2.mem = s.mem := by
  induction l generalizing s with
  | nil => rfl
  | cons a l ih => simp [readWords, ih]

@[simp] theorem readWords_pipe (s : State) (l : List Word) : (readWords s l).2.pipe = s.pipe := by
  induction l generalizing s with
  | nil => rfl
  | cons a l ih => simp [readWords, ih]

@[simp] theorem readWords_userLdm (s : State) (l : List Word) : (readWords s l).2.userLdm = s.userLdm := by
  induction l generalizing s with
  | nil => rfl
  | cons a l ih => simp [readWords, ih]

@[simp] theorem readWords_bus (s : State) (l : List Word) : (readWords s l).2.bus = s.bus := by
  induction l generalizing s with
  | nil => rfl
  | cons a l ih => simp [readWords, ih]

@[simp] theorem readWords_env (s : State) (l : List Word) : (readWords s l).2.env = s.env := by
  induction l generalizing s with
  | nil => rfl
  | cons a l ih => simp [readWords, ih]

@[simp] theorem readWords_inputs (s : State) (l : List Word) : (readWords s l).2.inputs = s.inputs := by
  induction l generalizing s with
  | nil => rfl
  | cons a l ih => simp [readWords, ih]

@[simp] theorem writeRegs_pc (m : Mode) (s : State) (l : List (Reg × Word)) : (writeRegs m s l).pc = s.pc := by
  induction l generalizing s with
  | nil => rfl
  | cons a l ih => simp [writeRegs, ih]

@[simp] theorem writeRegs_cpsr (m : Mode) (s : State) (l : List (Reg × Word)) : (writeRegs m s l).cpsr = s.cpsr := by
  induction l generalizing s with
  | nil => rfl
  | cons a l ih => simp [writeRegs, ih]

@[simp] theorem writeRegs_spsrs (m : Mode) (s : State) (l : List (Reg × Word)) : (writeRegs m s l).spsrs = s.spsrs := by
  induction l generalizing s with
  | nil => rfl
  | cons a l ih => simp [writeRegs, ih]

@[simp] theorem writeRegs_mem (m : Mode) (s : State) (l : List (Reg × Word)) : (writeRegs m s l).mem = s.mem := by
  induction l generalizing s with
  | nil => rfl
  | cons a l ih => simp [writeRegs, ih]

@[simp] theorem writeRegs_pipe (m : Mode) (s : State) (l : List (Reg × Word)) : (writeRegs m s l).pipe = s.pipe := by
  induction l generalizing s with
  | nil => rfl
  | cons a l ih => simp [writeRegs, ih]

@[simp] theorem writeRegs_userLdm (m : Mode) (s : State) (l : List (Reg × Word)) : (writeRegs m s l).userLdm = s.userLdm := by
  induction l generalizing s with
  | nil => rfl
  | cons a l ih => simp [writeRegs, ih]

@[simp] theorem writeRegs_bus (m : Mode) (s : State) (l : List (Reg × Word)) : (writeRegs m s l).bus = s.bus := by
  induction l generalizing s with
  | nil => rfl
  | cons a l ih => simp [writeRegs, ih]

@[simp] theorem writeRegs_env (m : Mode) (s : State) (l : List (Reg × Word)) : (writeRegs m s l).env = s.env := by
  induction l generalizing s with
  | nil => rfl
  | cons a l ih => simp [writeRegs, ih]

@[simp] theorem writeRegs_inputs (m : Mode) (s : State) (l : List (Reg × Word)) : (writeRegs m s l).inputs = s.inputs := by
  induction l generalizing s with
  | nil => rfl
  | cons a l ih => simp [writeRegs, ih]

@[simp] theorem writeRegs_draws (m : Mode) (s : State) (l : List (Reg × Word)) : (writeRegs m s l).draws = s.draws := by
  induction l generalizing s with
  | nil => rfl
  | cons a l ih => simp [writeRegs, ih]

@[simp] theorem recordReads_regs (s : State) (l : List Word) : (recordReads s l).regs = s.regs := by
  induction l generalizing s with
  | nil => rfl
  | cons a l ih => simp [recordReads, ih]

@[simp] theorem recordReads_pc (s : State) (l : List Word) : (recordReads s l).pc = s.pc := by
  induction l generalizing s with
  | nil => rfl
  | cons a l ih => simp [recordReads, ih]

@[simp] theorem recordReads_cpsr (s : State) (l : List Word) : (recordReads s l).cpsr = s.cpsr := by
  induction l generalizing s with
  | nil => rfl
  | cons a l ih => simp [recordReads, ih]

@[simp] theorem recordReads_spsrs (s : State) (l : List Word) : (recordReads s l).spsrs = s.spsrs := by
  induction l generalizing s with
  | nil => rfl
  | cons a l ih => simp [recordReads, ih]

@[simp] theorem recordReads_mem (s : State) (l : List Word) : (recordReads s l).mem = s.mem := by
  induction l generalizing s with
  | nil => rfl
  | cons a l ih => simp [recordReads, ih]

@[simp] theorem recordReads_pipe (s : State) (l : List Word) : (recordReads s l).pipe = s.pipe := by
  induction l generalizing s with
  | nil => rfl
  | cons a l ih => simp [recordReads, ih]

@[simp] theorem recordReads_userLdm (s : State) (l : List Word) : (recordReads s l).userLdm = s.userLdm := by
  induction l generalizing s with
  | nil => rfl
  | cons a l ih => simp [recordReads, ih]

@[simp] theorem recordReads_env (s : State) (l : List Word) : (recordReads s l).env = s.env := by
  induction l generalizing s with
  | nil => rfl
  | cons a l ih => simp [recordReads, ih]

@[simp] theorem recordReads_inputs (s : State) (l : List Word) : (recordReads s l).inputs = s.inputs := by
  induction l generalizing s with
  | nil => rfl
  | cons a l ih => simp [recordReads, ih]

@[simp] theorem recordReads_draws (s : State) (l : List Word) : (recordReads s l).draws = s.draws := by
  induction l generalizing s with
  | nil => rfl
  | cons a l ih => simp [recordReads, ih]

@[simp] theorem freeRegs_pc (m : Mode) (s : State) (l : List Reg) : (freeRegs m s l).pc = s.pc := by
  induction l generalizing s with
  | nil => rfl
  | cons a l ih => simp [freeRegs, ih]

@[simp] theorem freeRegs_cpsr (m : Mode) (s : State) (l : List Reg) : (freeRegs m s l).cpsr = s.cpsr := by
  induction l generalizing s with
  | nil => rfl
  | cons a l ih => simp [freeRegs, ih]

@[simp] theorem freeRegs_spsrs (m : Mode) (s : State) (l : List Reg) : (freeRegs m s l).spsrs = s.spsrs := by
  induction l generalizing s with
  | nil => rfl
  | cons a l ih => simp [freeRegs, ih]

@[simp] theorem freeRegs_mem (m : Mode) (s : State) (l : List Reg) : (freeRegs m s l).mem = s.mem := by
  induction l generalizing s with
  | nil => rfl
  | cons a l ih => simp [freeRegs, ih]

@[simp] theorem freeRegs_pipe (m : Mode) (s : State) (l : List Reg) : (freeRegs m s l).pipe = s.pipe := by
  induction l generalizing s with
  | nil => rfl
  | cons a l ih => simp [freeRegs, ih]

@[simp] theorem freeRegs_userLdm (m : Mode) (s : State) (l : List Reg) : (freeRegs m s l).userLdm = s.userLdm := by
  induction l generalizing s with
  | nil => rfl
  | cons a l ih => simp [freeRegs, ih]

@[simp] theorem freeRegs_bus (m : Mode) (s : State) (l : List Reg) : (freeRegs m s l).bus = s.bus := by
  induction l generalizing s with
  | nil => rfl
  | cons a l ih => simp [freeRegs, ih]

@[simp] theorem freeRegs_env (m : Mode) (s : State) (l : List Reg) : (freeRegs m s l).env = s.env := by
  induction l generalizing s with
  | nil => rfl
  | cons a l ih => simp [freeRegs, ih]

@[simp] theorem freeRegs_inputs (m : Mode) (s : State) (l : List Reg) : (freeRegs m s l).inputs = s.inputs := by
  induction l generalizing s with
  | nil => rfl
  | cons a l ih => simp [freeRegs, ih]

@[simp] theorem storeWords_regs (s : State) (l : List (Word × Word)) : (storeWords s l).regs = s.regs := by
  induction l generalizing s with
  | nil => rfl
  | cons a l ih => simp only [storeWords, ih]; split <;> simp

@[simp] theorem storeWords_pc (s : State) (l : List (Word × Word)) : (storeWords s l).pc = s.pc := by
  induction l generalizing s with
  | nil => rfl
  | cons a l ih => simp only [storeWords, ih]; split <;> simp

@[simp] theorem storeWords_cpsr (s : State) (l : List (Word × Word)) : (storeWords s l).cpsr = s.cpsr := by
  induction l generalizing s with
  | nil => rfl
  | cons a l ih => simp only [storeWords, ih]; split <;> simp

@[simp] theorem storeWords_spsrs (s : State) (l : List (Word × Word)) : (storeWords s l).spsrs = s.spsrs := by
  induction l generalizing s with
  | nil => rfl
  | cons a l ih => simp only [storeWords, ih]; split <;> simp

@[simp] theorem storeWords_pipe (s : State) (l : List (Word × Word)) : (storeWords s l).pipe = s.pipe := by
  induction l generalizing s with
  | nil => rfl
  | cons a l ih => simp only [storeWords, ih]; split <;> simp

@[simp] theorem storeWords_userLdm (s : State) (l : List (Word × Word)) : (storeWords s l).userLdm = s.userLdm := by
  induction l generalizing s with
  | nil => rfl
  | cons a l ih => simp only [storeWords, ih]; split <;> simp

@[simp] theorem storeWords_env (s : State) (l : List (Word × Word)) : (storeWords s l).env = s.env := by
  induction l generalizing s with
  | nil => rfl
  | cons a l ih => simp only [storeWords, ih]; split <;> simp

@[simp] theorem storeWords_inputs (s : State) (l : List (Word × Word)) : (storeWords s l).inputs = s.inputs := by
  induction l generalizing s with
  | nil => rfl
  | cons a l ih => simp only [storeWords, ih]; split <;> simp

@[simp] theorem storeWords_draws (s : State) (l : List (Word × Word)) : (storeWords s l).draws = s.draws := by
  induction l generalizing s with
  | nil => rfl
  | cons a l ih => simp only [storeWords, ih]; split <;> simp

/-! ## Reads that do not see an update -/

@[simp] theorem readReg_record (s : State) (x : Access) (r : Reg) : readReg (record s x) r = readReg s r := rfl

@[simp] theorem instrBytes_record (s : State) (x : Access) : instrBytes (record s x) = instrBytes s := rfl

@[simp] theorem instrBytes_writeReg (s : State) (r : Reg) (v : Word) : instrBytes (writeReg s r v) = instrBytes s := by
  simp [instrBytes]

@[simp] theorem instrBytes_writeBack (s : State) (r : Reg) (v : Option Word) : instrBytes (writeBack s r v) = instrBytes s := by
  simp [instrBytes]

end Sys2Proof.Machine
end

