-- ==== Sys2Proof/Laws/Memory.lean ====
section
/-! SUPPORT. The memory laws: a read after a write, bytes a write does not name, and the canonical form kept by every operation. -/

set_option Elab.async false

namespace Sys2Proof.Machine

/-! ## One byte -/

theorem Memory.read_erase (m : Memory) (a b : Nat) :
    (m.erase a).read b = if b = a then Config.unlistedByte else m.read b := by
  unfold Memory.erase
  induction m with
  | nil => simp [Memory.read]
  | cons c m ih =>
    obtain ⟨k, v⟩ := c
    by_cases hk : k = a
    · subst hk
      simp only [List.filter_cons, bne_self_eq_false, Bool.false_eq_true, if_false, ih, Memory.read]
      by_cases hb : b = k
      · simp [hb]
      · simp [hb, Ne.symm hb]
    · simp only [List.filter_cons, bne_iff_ne, ne_eq, hk, not_false_eq_true, if_true, Memory.read, ih]
      by_cases hb : k = b
      · subst hb
        simp [hk]
      · simp [hb]

theorem Memory.read_insert (m : Memory) (a b : Nat) (v : Byte) (h : ∀ c ∈ m, c.1 ≠ a) :
    (m.insert a v).read b = if b = a then v else m.read b := by
  induction m with
  | nil =>
    simp only [Memory.insert, Memory.read]
    by_cases hb : a = b
    · simp [hb]
    · simp [hb, Ne.symm hb]
  | cons c m ih =>
    obtain ⟨k, u⟩ := c
    have hk : k ≠ a := h (k, u) (by simp)
    have hm : ∀ c ∈ m, c.1 ≠ a := fun c hc => h c (by simp [hc])
    simp only [Memory.insert]
    split
    · simp only [Memory.read]
      by_cases hb : a = b
      · simp [hb]
      · simp [hb, Ne.symm hb]
    · simp only [Memory.read, ih hm]
      by_cases hb : k = b
      · subst hb
        simp [hk]
      · simp [hb]

/-- A byte after a write: the byte written at its address, every other byte as it was. -/
theorem Memory.read_write (m : Memory) (a b : Nat) (v : Byte) : (m.write a v).read b = if b = a then v else m.read b := by
  unfold Memory.write
  split
  · rename_i h
    rw [Memory.read_erase, h]
  · rw [Memory.read_insert _ _ _ _ (by intro c hc; simpa [Memory.erase] using (List.mem_filter.mp hc).2), Memory.read_erase]
    split <;> simp_all

/-! ## The canonical form -/

theorem Memory.wfFrom_mono {m : Memory} {lo lo' : Nat} (h : lo' ≤ lo) (hm : Memory.wfFrom lo m = true) :
    Memory.wfFrom lo' m = true := by
  cases m with
  | nil => rfl
  | cons c m =>
    obtain ⟨k, v⟩ := c
    simp only [Memory.wfFrom, Bool.and_eq_true, decide_eq_true_eq] at hm ⊢
    exact ⟨⟨le_trans h hm.1.1, hm.1.2⟩, hm.2⟩

theorem Memory.wfFrom_erase {m : Memory} {lo : Nat} (a : Nat) (h : Memory.wfFrom lo m = true) :
    Memory.wfFrom lo (m.erase a) = true := by
  induction m generalizing lo with
  | nil => rfl
  | cons c m ih =>
    obtain ⟨k, v⟩ := c
    simp only [Memory.wfFrom, Bool.and_eq_true, decide_eq_true_eq] at h
    unfold Memory.erase at ih ⊢
    rw [List.filter_cons]
    split
    · simp only [Memory.wfFrom, Bool.and_eq_true, decide_eq_true_eq]
      exact ⟨h.1, ih h.2⟩
    · exact ih (Memory.wfFrom_mono (by omega) h.2)

theorem Memory.wfFrom_insert {m : Memory} {lo a : Nat} {v : Byte} (hm : Memory.wfFrom lo m = true) (hlo : lo ≤ a)
    (hv : v ≠ Config.unlistedByte) (hne : ∀ c ∈ m, c.1 ≠ a) : Memory.wfFrom lo (m.insert a v) = true := by
  induction m generalizing lo with
  | nil => simp [Memory.insert, Memory.wfFrom, hlo, hv]
  | cons c m ih =>
    obtain ⟨k, u⟩ := c
    have hk : k ≠ a := hne (k, u) (by simp)
    have hne' : ∀ c ∈ m, c.1 ≠ a := fun c hc => hne c (by simp [hc])
    simp only [Memory.wfFrom, Bool.and_eq_true, decide_eq_true_eq] at hm
    simp only [Memory.insert]
    split
    · rename_i hlt
      simp only [Memory.wfFrom, Bool.and_eq_true, decide_eq_true_eq, bne_iff_ne, ne_eq]
      exact ⟨⟨hlo, hv⟩, ⟨⟨by omega, by simpa using hm.1.2⟩, hm.2⟩⟩
    · simp only [Memory.wfFrom, Bool.and_eq_true, decide_eq_true_eq]
      exact ⟨hm.1, ih hm.2 (by omega) hne'⟩

/-- A write inside the address space keeps the canonical form. -/
theorem Memory.wf_write {m : Memory} {a : Nat} (v : Byte) (h : m.wf = true) (ha : a < 2 ^ 32) : (m.write a v).wf = true := by
  simp only [Memory.wf, Bool.and_eq_true, List.all_eq_true, decide_eq_true_eq] at h ⊢
  obtain ⟨h1, h2⟩ := h
  have he : ∀ c ∈ m.erase a, c ∈ m ∧ c.1 ≠ a := by
    intro c hc
    have := List.mem_filter.mp hc
    exact ⟨this.1, by simpa using this.2⟩
  have hins : ∀ (l : Memory) (c : Nat × Byte), c ∈ l.insert a v → c = (a, v) ∨ c ∈ l := by
    intro l
    induction l with
    | nil => simp [Memory.insert]
    | cons d l ih =>
      intro c hc
      simp only [Memory.insert] at hc
      split at hc
      · simpa using hc
      · rcases List.mem_cons.mp hc with h | h
        · exact .inr (by simp [h])
        · rcases ih c h with h | h
          · exact .inl h
          · exact .inr (by simp [h])
  unfold Memory.write
  split
  · exact ⟨Memory.wfFrom_erase a h1, fun c hc => h2 c (he c hc).1⟩
  · rename_i hv
    refine ⟨Memory.wfFrom_insert (Memory.wfFrom_erase a h1) (Nat.zero_le _) hv (fun c hc => (he c hc).2), fun c hc => ?_⟩
    rcases hins _ c hc with h | h
    · simpa [h] using ha
    · exact h2 c (he c h).1

/-- The memory at reset is in its canonical form. -/
theorem reset_mem_wf : State.reset.mem.wf = true := rfl

/-! ## Accesses -/

theorem putByte_read (m : Memory) (a : Word) (k : Nat) (v : Byte) (b : Nat) :
    (putByte m a k v).read b = if b = (a + BitVec.ofNat 32 k).toNat then v else m.read b := Memory.read_write _ _ _ _

/-- Every write of every size keeps the canonical form. -/
theorem memWrite_wf {m : Memory} (big : Bool) (a v : Word) (size : Size) (h : m.wf = true) :
    (memWrite big m a v size).wf = true := by
  cases size <;> cases big <;>
    simp only [memWrite, putByte, if_true, if_false, Bool.false_eq_true] <;>
    repeat' first | exact h | refine Memory.wf_write _ ?_ (BitVec.isLt _)

theorem writeMem_wf {s : State} (a : Word) (size : Size) (v : Word) (h : s.mem.wf = true) :
    (writeMem s a size v).mem.wf = true := by
  unfold writeMem
  split
  · exact h
  · exact memWrite_wf _ _ _ _ h

theorem storeWords_wf {s : State} (l : List (Word × Word)) (h : s.mem.wf = true) : (storeWords s l).mem.wf = true := by
  induction l generalizing s with
  | nil => exact h
  | cons x l ih =>
    simp only [storeWords]
    apply ih
    split
    · exact h
    · exact writeMem_wf _ _ _ h

/-- The offset of a byte inside an aligned access does not wrap. -/
theorem toNat_add_aligned {a : Word} {size : Size} (h : misaligned a size = false) {k : Nat} (hk : k < size.bytes) :
    (a + BitVec.ofNat 32 k).toNat = a.toNat + k := by
  have hlt := a.isLt
  cases size <;> simp only [Size.bytes] at hk <;>
    simp only [misaligned, Bool.not_eq_false', wordAligned_iff, halfAligned_iff] at h <;>
    rw [BitVec.toNat_add, BitVec.toNat_ofNat] <;> omega

/-- An aligned write changes no byte outside its own. -/
theorem memWrite_read_outside (big : Bool) (m : Memory) {a : Word} (v : Word) {size : Size} (h : misaligned a size = false) {b : Nat}
    (hb : b < a.toNat ∨ a.toNat + size.bytes ≤ b) : (memWrite big m a v size).read b = m.read b := by
  have key : ∀ k, k < size.bytes → (b = (a + BitVec.ofNat 32 k).toNat) = False := by
    intro k hk
    rw [toNat_add_aligned h hk]
    simp only [eq_iff_iff, iff_false]
    omega
  cases size <;> cases big <;> simp only [Size.bytes] at key <;>
    simp (disch := decide) only [memWrite, if_true, if_false, Bool.false_eq_true, putByte_read, key]

/-- The bytes of an aligned write, in the byte order. -/
theorem memWrite_read_inside (big : Bool) (m : Memory) {a : Word} (v : Word) {size : Size} (h : misaligned a size = false) {k : Nat}
    (hk : k < size.bytes) :
    (memWrite big m a v size).read (a.toNat + k) = wordByte v (if big then size.bytes - 1 - k else k) := by
  have key : ∀ j, j < size.bytes → (a + BitVec.ofNat 32 j).toNat = a.toNat + j := fun j hj => toNat_add_aligned h hj
  cases size <;> cases big <;>
    simp only [memWrite, if_true, if_false, Bool.false_eq_true, putByte_read] <;>
    simp only [Size.bytes] at key hk ⊢ <;>
    interval_cases k <;>
    simp [key 1, key 2, key 3]

end Sys2Proof.Machine
end

