-- ==== Sys2Proof/Laws/Abandon.lean ====
section
/-! SUPPORT. What a step abandoned by a reset leaves (Machine/Abandon.lean): each part old or new, memory as the accesses that were
made left it; and what a step is where no reset falls into it. -/

set_option Elab.async false

namespace Sys2Proof.Machine

@[simp] theorem Regs.get_ofFn (f : Phys → Word) (p : Phys) : (Regs.ofFn f).get p = f p := by cases p <;> rfl

/-! ## Registers, SPSRs, CPSR: old or new -/

theorem pick_cases {α : Type} (d k : Nat) (old new : α) : pick d k old new = old ∨ pick d k old new = new := by
  unfold pick
  split
  · exact .inr rfl
  · exact .inl rfl

theorem mixRegs_get (d : Nat) (old new : Regs) (p : Phys) :
    (mixRegs d old new).get p = old.get p ∨ (mixRegs d old new).get p = new.get p := by
  simpa only [mixRegs, Regs.get_ofFn] using pick_cases d p.ctorIdx (old.get p) (new.get p)

theorem mixSpsrs_get (d : Nat) (old new : Spsrs) (m : Mode) :
    (mixSpsrs d old new).get m = old.get m ∨ (mixSpsrs d old new).get m = new.get m := by
  cases m with
  | usr => exact .inl rfl
  | sys => exact .inl rfl
  | fiq => exact (pick_cases d 30 old.fiq new.fiq).imp (congrArg some) (congrArg some)
  | irq => exact (pick_cases d 31 old.irq new.irq).imp (congrArg some) (congrArg some)
  | svc => exact (pick_cases d 32 old.svc new.svc).imp (congrArg some) (congrArg some)
  | abt => exact (pick_cases d 33 old.abt new.abt).imp (congrArg some) (congrArg some)
  | und => exact (pick_cases d 34 old.und new.und).imp (congrArg some) (congrArg some)

@[simp] theorem abandon_regs (n : Nat) (s t : State) : (abandon n s t).regs = mixRegs t.draws s.regs t.regs := rfl

@[simp] theorem abandon_spsrs (n : Nat) (s t : State) : (abandon n s t).spsrs = mixSpsrs t.draws s.spsrs t.spsrs := rfl

@[simp] theorem abandon_cpsr (n : Nat) (s t : State) : (abandon n s t).cpsr = pick t.draws 35 s.cpsr t.cpsr := rfl

@[simp] theorem abandon_mem (n : Nat) (s t : State) : (abandon n s t).mem = ((t.bus.take (n + 1)).foldl replay s).mem := rfl

@[simp] theorem abandon_bus (n : Nat) (s t : State) : (abandon n s t).bus = t.bus.take (n + 1) := rfl

@[simp] theorem abandon_inputs (n : Nat) (s t : State) : (abandon n s t).inputs = t.inputs := rfl

@[simp] theorem abandon_draws (n : Nat) (s t : State) : (abandon n s t).draws = t.draws + 36 := rfl

/-! ## Memory: what the accesses made left -/

/-- An access replayed changes memory only. -/
theorem replay_frame (s : State) (x : Access) : ∃ m, replay s x = { s with mem := m } := by
  unfold replay writeMem
  split
  · split
    · exact ⟨s.mem, rfl⟩
    · split
      · exact ⟨s.mem, rfl⟩
      · exact ⟨_, rfl⟩
  · exact ⟨s.mem, rfl⟩

theorem foldl_replay_frame (l : List Access) (s : State) : ∃ m, l.foldl replay s = { s with mem := m } := by
  induction l generalizing s with
  | nil => exact ⟨s.mem, rfl⟩
  | cons x l ih =>
    obtain ⟨m, hm⟩ := replay_frame s x
    obtain ⟨m', h⟩ := ih (replay s x)
    exact ⟨m', by rw [List.foldl_cons, h, hm]⟩

@[simp] theorem abandon_env (n : Nat) (s t : State) : (abandon n s t).env = s.env := by
  obtain ⟨m, h⟩ := foldl_replay_frame (t.bus.take (n + 1)) s
  show ((t.bus.take (n + 1)).foldl replay s).env = s.env
  rw [h]

/-- A read replayed changes nothing. -/
theorem replay_read (s : State) {x : Access} (h : x.dout = none) : replay s x = s := by
  simp only [replay, h]

/-- Accesses that drive nothing change nothing. -/
theorem foldl_replay_reads (l : List Access) (s : State) (h : ∀ x ∈ l, x.dout = none) : l.foldl replay s = s := by
  induction l generalizing s with
  | nil => rfl
  | cons x l ih =>
    rw [List.foldl_cons, replay_read s (h x List.mem_cons_self)]
    exact ih s fun y hy => h y (List.mem_cons_of_mem x hy)

theorem replay_wf {s : State} (x : Access) (h : s.mem.wf = true) : (replay s x).mem.wf = true := by
  unfold replay
  split
  · split
    · exact h
    · exact writeMem_wf _ _ _ h
  · exact h

theorem foldl_replay_wf (l : List Access) {s : State} (h : s.mem.wf = true) : (l.foldl replay s).mem.wf = true := by
  induction l generalizing s with
  | nil => exact h
  | cons x l ih => exact ih (replay_wf x h)

/-- An abandoned step keeps memory in its canonical form. -/
theorem abandon_wf (n : Nat) {s : State} (t : State) (h : s.mem.wf = true) : (abandon n s t).mem.wf = true :=
  foldl_replay_wf _ h

/-- Byte `k` of the lanes a store drives is byte `k` of its value, for the bytes of its size. -/
theorem wordByte_lanes (v : Word) {size : Size} {k : Nat} (hk : k < size.bytes) : wordByte (lanes v size) k = wordByte v k := by
  have low : ∀ {m n : Nat} (x : BitVec m) (y : BitVec n) {i : Nat}, i < n → (x ++ y).getLsbD i = y.getLsbD i := by
    intro m n x y i hi
    rw [BitVec.getLsbD_append, if_pos hi]
  apply BitVec.eq_of_getLsbD_eq
  intro i hi
  simp only [wordByte, BitVec.getLsbD_extractLsb', hi, decide_true, Bool.true_and]
  cases size with
  | byte =>
    have h8 : 8 * k + i < 8 := by simp only [Size.bytes] at hk; omega
    exact (low _ (wordByte v 0) h8).trans (by simp [wordByte, h8])
  | half =>
    have h16 : 8 * k + i < 16 := by simp only [Size.bytes] at hk; omega
    exact (low _ (v.setWidth 16) h16).trans (by simp [h16])
  | word => rfl

/-- What a replayed store puts in memory is what was stored. -/
theorem memWrite_lanes (big : Bool) (m : Memory) (a v : Word) (size : Size) :
    memWrite big m a (lanes v size) size = memWrite big m a v size := by
  cases size
  · simp only [memWrite, wordByte_lanes v (size := .byte) (k := 0) (by decide)]
  · simp only [memWrite, wordByte_lanes v (size := .half) (k := 0) (by decide), wordByte_lanes v (size := .half) (k := 1) (by decide)]
  · rfl

/-! ## The step -/

/-- Where nRESET does not fall in the middle of it, a step is whole. -/
theorem step_whole {s : State} (h : (lines s).resetAfter = none) : step s = wholeStep s := by
  unfold step endStep
  split
  · rename_i h'
    rw [h] at h'
    cases h'
  · rfl

/-- A step that answers a next state is whole, or was abandoned and ends in the reset. -/
theorem step_next {s u : State} (h : step s = .next u) :
    ∃ t, wholeStep s = .next t ∧
      (u = t ∨ ∃ n, (lines s).nRESET = true ∧ (lines s).resetAfter = some n ∧ u = takeReset (abandon n (beginStep s) t)) := by
  unfold step endStep at h
  split at h
  · rename_i t n h1 h2 h3
    exact ⟨t, h1, .inr ⟨n, h2, h3, (Host.Outcome.next.inj h).symm⟩⟩
  · exact ⟨u, h, .inl rfl⟩

/-- Where nRESET falls in the middle of a step that would end in `t`. -/
theorem step_abandoned {s t : State} {n : Nat} (h1 : wholeStep s = .next t) (h2 : (lines s).nRESET = true)
    (h3 : (lines s).resetAfter = some n) : step s = .next (takeReset (abandon n (beginStep s) t)) := by
  simp only [step, endStep, h1, h2, h3]

end Sys2Proof.Machine
end

