-- ==== Sys2Proof/Laws/Flags.lean ====
section
/-! SUPPORT. The adder and the sixteen operations against plain arithmetic: results, carries and overflows. -/

set_option Elab.async false

namespace Sys2Proof.Machine

open Sys2Proof.Claims

theorem addWithCarry_result (a b : Word) (c : Bool) : (addWithCarry a b c).result = a + b + bit c := by
  apply BitVec.eq_of_toNat_eq
  cases c <;> simp [addWithCarry, bit, BitVec.toNat_add]

theorem addWithCarry_carry (a b : Word) (c : Bool) :
    (addWithCarry a b c).carry = decide (2 ^ 32 ≤ a.toNat + b.toNat + c.toNat) := rfl

theorem addWithCarry_ovf (a b : Word) (c : Bool) :
    (addWithCarry a b c).ovf = overflows (a.toInt + b.toInt + (c.toNat : Int)) := by
  simp only [addWithCarry, overflows]
  congr 1

theorem toNat_not (b : Word) : (~~~b).toNat = 2 ^ 32 - 1 - b.toNat := by simp

theorem toInt_not (b : Word) : (~~~b).toInt = -b.toInt - 1 := by
  rw [BitVec.toInt_not, Int.bmod_def]
  have := b.toInt_lt
  have := b.le_toInt
  simp only [BitVec.toInt_eq_toNat_bmod, Int.bmod_def] at *
  have := b.isLt
  omega

/-- Subtraction: the result, no borrow, and overflow. -/
theorem addWithCarry_sub (a b : Word) (c : Bool) :
    addWithCarry a (~~~b) c =
      { result := a - b - bit (!c)
        carry := decide (b.toNat + (!c).toNat ≤ a.toNat)
        ovf := overflows (a.toInt - b.toInt - ((!c).toNat : Int)) } := by
  have hr : (addWithCarry a (~~~b) c).result = a - b - bit (!c) := by
    rw [addWithCarry_result]
    apply BitVec.eq_of_toNat_eq
    have ha := a.isLt
    have hb := b.isLt
    cases c <;> simp [bit, BitVec.toNat_add, BitVec.toNat_sub] <;> omega
  have hc : (addWithCarry a (~~~b) c).carry = decide (b.toNat + (!c).toNat ≤ a.toNat) := by
    rw [addWithCarry_carry, toNat_not]
    have ha := a.isLt
    have hb := b.isLt
    cases c <;> simp only [Bool.not_true, Bool.not_false, Bool.toNat_true, Bool.toNat_false] <;>
      exact decide_eq_decide.mpr (by omega)
  have ho : (addWithCarry a (~~~b) c).ovf = overflows (a.toInt - b.toInt - ((!c).toNat : Int)) := by
    rw [addWithCarry_ovf, toInt_not]
    congr 1
    cases c <;> simp <;> omega
  rw [← hr, ← hc, ← ho]

/-- The result of each operation. -/
theorem alu_result (op : AluOp) (a : Word) (o : Shifted) (p : Psr) : (alu op a o p).result = dpResult op a o.value p.c := by
  cases op <;> simp [alu, dpResult, addWithCarry_sub, addWithCarry_result, bit]

/-- C of each operation. -/
theorem alu_carry (op : AluOp) (a : Word) (o : Shifted) (p : Psr) :
    (alu op a o p).carry = dpCarry op a o.value p.c o.carry := by
  cases op <;> simp [alu, dpCarry, addWithCarry_sub, addWithCarry_carry]

/-- V of each operation. -/
theorem alu_ovf (op : AluOp) (a : Word) (o : Shifted) (p : Psr) : (alu op a o p).ovf = dpOverflow op a o.value p.c p.v := by
  cases op <;> simp [alu, dpOverflow, addWithCarry_sub, addWithCarry_ovf]

/-- N is the sign of the result. -/
theorem msb_eq_neg (v : Word) : v.getLsbD 31 = decide (v.toInt < 0) := by
  rw [← BitVec.msb_eq_toInt, BitVec.msb_eq_getLsbD_last]

/-- The four flags of each operation. -/
theorem flagsOf_alu (op : AluOp) (a : Word) (o : Shifted) (p : Psr) : flagsOf (alu op a o p) p = dpFlags op a o p := by
  simp only [flagsOf, dpFlags, alu_result, alu_carry, alu_ovf, msb_eq_neg]
  congr 1

end Sys2Proof.Machine
end

