-- ==== Sys2Proof/Laws/Registers.lean ====
section
/-! SUPPORT. The register laws: read after write, which registers a mode's bank reaches, and what each register operation leaves. -/

set_option Elab.async false

namespace Sys2Proof.Machine

theorem Regs.get_set (g : Regs) (p q : Phys) (v : Word) : (g.set p v).get q = if q = p then v else g.get q := by
  cases p <;> cases q <;> rfl

@[simp] theorem Regs.get_set_same (g : Regs) (p : Phys) (v : Word) : (g.set p v).get p = v := by
  simp [Regs.get_set]

theorem Regs.get_set_ne (g : Regs) {p q : Phys} (v : Word) (h : q ≠ p) : (g.set p v).get q = g.get q := by
  simp [Regs.get_set, h]

/-- Two register files that agree on every name are one. -/
theorem Regs.ext_get {g h : Regs} (e : ∀ p, g.get p = h.get p) : g = h := by
  cases g
  cases h
  simp only [Regs.mk.injEq]
  exact ⟨e .r0, e .r1, e .r2, e .r3, e .r4, e .r5, e .r6, e .r7, e .r8, e .r9, e .r10, e .r11, e .r12, e .r13, e .r14,
    e .r8Fiq, e .r9Fiq, e .r10Fiq, e .r11Fiq, e .r12Fiq, e .r13Fiq, e .r14Fiq, e .r13Irq, e .r14Irq, e .r13Svc, e .r14Svc,
    e .r13Abt, e .r14Abt, e .r13Und, e .r14Und⟩

theorem Regs.set_comm (g : Regs) {p q : Phys} (v w : Word) (h : p ≠ q) : (g.set p v).set q w = (g.set q w).set p v := by
  refine Regs.ext_get fun r => ?_
  simp only [Regs.get_set]
  split
  · rename_i e
    subst e
    simp [Ne.symm h]
  · rfl

/-- A mode reaches a register for every number but 15. -/
theorem bank_isSome : ∀ (m : Mode) (r : Reg), (bank m r).isSome = (r != 15) := by
  intro m
  cases m <;> decide

@[simp] theorem bank_pc (m : Mode) : bank m 15#4 = none := by cases m <;> rfl

theorem bank_eq_none {m : Mode} {r : Reg} (h : bank m r = none) : r = 15 := by
  have := bank_isSome m r
  rw [h] at this
  simpa using this.symm

/-- Different numbers are different registers. -/
theorem bank_inj : ∀ (m : Mode) (r q : Reg), bank m r = bank m q → r = q := by
  intro m
  cases m <;> decide

/-- R0 to R7 are the same in every mode. -/
theorem bank_low (m n : Mode) (r : LoReg) : bank m (lo r) = bank n (lo r) := by
  revert r
  cases m <;> cases n <;> decide

theorem bank_link : ∀ m : Mode, bank m 14 = some (lrOf m) := by
  intro m
  cases m <;> rfl

theorem bank_stack : ∀ m : Mode, bank m 13 = some (spOf m) := by
  intro m
  cases m <;> rfl

@[simp] theorem bank_sys : ∀ r : Reg, bank .sys r = bank .usr r := by decide

/-- A Thumb low register is not the pc. -/
@[simp] theorem lo_ne_pc : ∀ r : LoReg, lo r ≠ 15#4 := by decide

theorem lo_lt : ∀ r : LoReg, (lo r).toNat < 8 := by decide

theorem writeBank_regs (s : State) (m : Mode) (r : Reg) (v : Word) :
    (writeBank s m r v).regs = (match bank m r with | some p => s.regs.set p v | none => s.regs) := by
  unfold writeBank
  split <;> simp_all

/-- What a register holds after a write. -/
theorem writeBank_get (s : State) (m : Mode) (r : Reg) (v : Word) (p : Phys) :
    (writeBank s m r v).regs.get p = if bank m r = some p then v else s.regs.get p := by
  rw [writeBank_regs]
  split
  · rename_i q h
    simp only [Regs.get_set, h, Option.some.injEq]
    exact if_congr eq_comm rfl rfl
  · rename_i h
    simp [h]

theorem writeReg_get (s : State) (r : Reg) (v : Word) (p : Phys) :
    (writeReg s r v).regs.get p = if bank s.cpsr.mode r = some p then v else s.regs.get p :=
  writeBank_get s _ r v p

/-- What a register holds after the write-back. -/
theorem writeBack_get (s : State) (r : Reg) (v : Option Word) (p : Phys) :
    (writeBack s r v).regs.get p =
      (match v with | some w => if bank s.cpsr.mode r = some p then w else s.regs.get p | none => s.regs.get p) := by
  cases v with
  | none => rfl
  | some w => exact writeReg_get s r w p

@[simp] theorem readReg_pc (s : State) : readReg s 15#4 = pcRead s := by simp [readReg, readBank]

/-- A register but the pc depends on the registers and the mode only. -/
theorem readReg_congr {s u : State} {r : Reg} (hr : r ≠ 15) (h : u.regs = s.regs) (hm : u.cpsr.mode = s.cpsr.mode) :
    readReg u r = readReg s r := by
  simp only [readReg, readBank, h, hm]
  split
  · rfl
  · rename_i hn
    exact absurd (bank_eq_none hn) hr

/-- Read after write, the same register, not the pc. -/
theorem readReg_writeReg_same (s : State) {r : Reg} (v : Word) (h : r ≠ 15) : readReg (writeReg s r v) r = v := by
  simp only [readReg, readBank, writeReg_cpsr, writeReg_get]
  split
  · rename_i p hp
    simp [hp]
  · rename_i hn
    exact absurd (bank_eq_none hn) h

/-- Read after write, another register. -/
theorem readReg_writeReg_ne (s : State) {r q : Reg} (v : Word) (h : q ≠ r) : readReg (writeReg s r v) q = readReg s q := by
  simp only [readReg, readBank, writeReg_cpsr, writeReg_get, pcRead, writeReg_pc]
  split
  · rename_i p hp
    rw [if_neg]
    intro hr
    exact h (bank_inj _ _ _ (hp.trans hr.symm))
  · rfl

/-- What the registers hold after several writes, none of them to this one. -/
theorem writeRegs_get_ne (m : Mode) (s : State) (l : List (Reg × Word)) (p : Phys) (h : ∀ x ∈ l, bank m x.1 ≠ some p) :
    (writeRegs m s l).regs.get p = s.regs.get p := by
  induction l generalizing s with
  | nil => rfl
  | cons x l ih =>
    simp only [writeRegs]
    rw [ih _ (fun y hy => h y (by simp [hy])), writeBank_get, if_neg (h x (by simp))]

/-- The registers that take free values; the others keep theirs. -/
theorem freeRegs_get_ne (m : Mode) (s : State) (l : List Reg) (p : Phys) (h : ∀ r ∈ l, bank m r ≠ some p) :
    (freeRegs m s l).regs.get p = s.regs.get p := by
  induction l generalizing s with
  | nil => rfl
  | cons x l ih =>
    simp only [freeRegs]
    rw [ih _ (fun y hy => h y (by simp [hy])), writeBank_get, if_neg (h x (by simp))]
    rfl

/-- The SPSR of a mode after another's is written. -/
theorem Spsrs.get_set (q : Spsrs) (m n : Mode) (v : Word) :
    (q.set m v).get n = if n = m ∧ n ≠ .usr ∧ n ≠ .sys then some v else q.get n := by
  cases m <;> cases n <;> simp [Spsrs.set, Spsrs.get]

/-- User and System have no SPSR, every other mode has one. -/
theorem Spsrs.get_eq_none (q : Spsrs) (m : Mode) : q.get m = none ↔ (m = .usr ∨ m = .sys) := by
  cases m <;> simp [Spsrs.get]

/-- An exception's mode has an SPSR. -/
theorem Exc.mode_banked (e : Exc) : e.mode ≠ .usr ∧ e.mode ≠ .sys := by
  cases e <;> simp [Exc.mode]

end Sys2Proof.Machine
end

