-- ==== Sys2Proof/Laws/Ops.lean ====
section
/-! SUPPORT. For each shared operation, everything a next state of it can be. -/

set_option Elab.async false

namespace Sys2Proof.Machine

open Sys2Proof.Claims

/-! ## Advancing, conditions, restrictions -/

theorem room_iff (s : State) : room s = true ↔ s.pc.toNat + (instrBytes s).toNat < 2 ^ 32 := by
  simp only [room, decide_eq_true_eq]

theorem past_eq (s t : State) : past s t = { t with pc := s.pc + instrBytes s } := rfl

theorem advance_of_room {s : State} (h : room s = true) : advance s = .next { s with pc := s.pc + instrBytes s } := by
  exact if_pos ((room_iff s).mp h)

theorem advance_next {s t : State} (h : advance s = .next t) : room s = true ∧ t = { s with pc := s.pc + instrBytes s } := by
  unfold advance at h
  split at h
  · rename_i hr
    exact ⟨(room_iff s).mpr hr, (Host.Outcome.next.inj h).symm⟩
  · exact absurd h (by simp)

/-- Advancing in a state with the same pc and T. -/
theorem advance_past {s u : State} (hpc : u.pc = s.pc) (ht : u.cpsr.t = s.cpsr.t) (h : room s = true) :
    advance u = .next (past s u) := by
  have hb : instrBytes u = instrBytes s := by simp [instrBytes, ht]
  rw [advance_of_room (by rw [room_iff] at h ⊢; rw [hpc, hb]; exact h), hpc, hb, past_eq]

theorem checked_next {b : Option Restriction} {r : Result} {t : State} (h : checked b r = .next t) : b = none ∧ r = .next t := by
  cases b with
  | none => exact ⟨rfl, h⟩
  | some w => exact absurd h (by simp [checked])

theorem conditional_pass {c : Cond} {b : Option Restriction} {s : State} {r : Result} (hc : condPassed c s.cpsr = true)
    (hb : b = none) : conditional c b s r = r := by
  simp [conditional, hc, hb, checked]

theorem conditional_fail {c : Cond} {b : Option Restriction} {s : State} {r : Result} (hc : condPassed c s.cpsr = false) :
    conditional c b s r = advance s := by
  simp [conditional, hc]

theorem conditional_broken {c : Cond} {b : Option Restriction} {s : State} {r : Result} {why : Restriction}
    (hc : condPassed c s.cpsr = true) (hb : b = some why) : conditional c b s r = .refused (.operands why) := by
  simp [conditional, hc, hb, checked]

theorem conditional_next {c : Cond} {b : Option Restriction} {s t : State} {r : Result} (h : conditional c b s r = .next t) :
    (condPassed c s.cpsr = true ∧ b = none ∧ r = .next t) ∨ (condPassed c s.cpsr = false ∧ advance s = .next t) := by
  unfold conditional at h
  split at h
  · rename_i hc
    exact .inl ⟨hc, checked_next h⟩
  · rename_i hc
    exact .inr ⟨by simpa using hc, h⟩

/-! ## Writes of the pc -/

theorem branchAligned_next {a : Word} {s t : State} (h : branchAligned a s = .next t) :
    wordAligned a = true ∧ t = branchTo a s := by
  unfold branchAligned at h
  split at h
  · rename_i ha
    exact ⟨ha, (Host.Outcome.next.inj h).symm⟩
  · exact absurd h (by simp)

theorem branchExchange_next {a : Word} {s t : State} (h : branchExchange a s = .next t) :
    (a.getLsbD 0 = true ∧ t = branchTo (halfMask a) { s with cpsr := { s.cpsr with t := true } }) ∨
    (a.getLsbD 0 = false ∧ wordAligned a = true ∧ t = branchTo a { s with cpsr := { s.cpsr with t := false } }) := by
  unfold branchExchange at h
  split at h
  · rename_i ha
    exact .inl ⟨ha, (Host.Outcome.next.inj h).symm⟩
  · rename_i ha
    split at h
    · rename_i hw
      exact .inr ⟨by simpa using ha, hw, (Host.Outcome.next.inj h).symm⟩
    · exact absurd h (by simp)

theorem exceptionReturn_next {m : Bool} {a : Word} {s t : State} (h : exceptionReturn m a s = .next t) :
    ∃ w p, s.spsrs.get s.cpsr.mode = some w ∧ Psr.ofWord w = some p ∧
      ((p.t = true ∧ t = branchTo (halfMask a) { s with cpsr := p }) ∨
       (p.t = false ∧ m = true ∧ t = branchTo (wordMask a) { s with cpsr := p }) ∨
       (p.t = false ∧ m = false ∧ wordAligned a = true ∧ t = branchTo a { s with cpsr := p })) := by
  unfold exceptionReturn at h
  split at h
  · exact absurd h (by simp)
  · rename_i w hw
    split at h
    · exact absurd h (by simp)
    · rename_i p hp
      refine ⟨w, p, hw, hp, ?_⟩
      split at h
      · rename_i ht
        exact .inl ⟨ht, (Host.Outcome.next.inj h).symm⟩
      · rename_i ht
        split at h
        · rename_i hm
          exact .inr (.inl ⟨by simpa using ht, hm, (Host.Outcome.next.inj h).symm⟩)
        · rename_i hm
          obtain ⟨h1, h2⟩ := branchAligned_next h
          exact .inr (.inr ⟨by simpa using ht, by simpa using hm, h1, h2⟩)

/-! ## Transfers -/

theorem loadTo_next {rd : Reg} {v : Word} {s t : State} (h : loadTo rd v s = .next t) :
    (rd = 15 ∧ t = branchTo (wordMask v) s) ∨ (rd ≠ 15 ∧ advance (writeReg s rd v) = .next t) := by
  unfold loadTo at h
  split at h
  · rename_i hr
    exact .inl ⟨hr, (Host.Outcome.next.inj h).symm⟩
  · rename_i hr
    exact .inr ⟨hr, h⟩

/-- A load ends in the Data Abort, in a branch, or past the instruction with Rd written. -/
theorem loadSingle_next {k : LoadKind} {priv : Bool} {rn rd : Reg} {x : Address} {s t : State}
    (h : loadSingle k priv rn rd x s = .next t) :
    (abortsData s x.addr k.size priv false = true ∧
      t = takeDataAbort (writeBack (record s (accessOf s x.addr k.size priv false false none)) rn x.wb)) ∨
    (abortsData s x.addr k.size priv false = false ∧ misaligned x.addr k.size = false ∧
      ∃ v u, readMem (record s (accessOf s x.addr k.size priv false false none)) x.addr k.size = (v, u) ∧
        loadTo rd (k.extend v) (writeBack u rn x.wb) = .next t) := by
  unfold loadSingle at h
  simp only at h
  split at h
  · rename_i ha
    exact .inl ⟨ha, (Host.Outcome.next.inj h).symm⟩
  · rename_i ha
    split at h
    · exact absurd h (by simp)
    · rename_i hm
      exact .inr ⟨by simpa using ha, by simpa using hm, _, _, rfl, h⟩

/-- A store ends in the Data Abort, or past the instruction with the bytes written. -/
theorem storeSingle_next {size : Size} {priv : Bool} {rn rd : Reg} {x : Address} {s t : State}
    (h : storeSingle size priv rn rd x s = .next t) :
    (abortsData s x.addr size priv true = true ∧
      t = takeDataAbort (writeBack
        (record s (accessOf s x.addr size priv true false (some (lanes (storeValue s s.cpsr.mode rd) size)))) rn x.wb)) ∨
    (abortsData s x.addr size priv true = false ∧ misaligned x.addr size = false ∧
      advance (writeBack (writeMem
        (record s (accessOf s x.addr size priv true false (some (lanes (storeValue s s.cpsr.mode rd) size)))) x.addr size
        (storeValue s s.cpsr.mode rd)) rn x.wb) = .next t) := by
  unfold storeSingle at h
  simp only at h
  split at h
  · rename_i ha
    exact .inl ⟨ha, (Host.Outcome.next.inj h).symm⟩
  · rename_i ha
    split at h
    · exact absurd h (by simp)
    · rename_i hm
      exact .inr ⟨by simpa using ha, by simpa using hm, h⟩

/-- A swap ends in a Data Abort from its read or its write, or past the instruction with the exchange made. -/
theorem swap_next {size : Size} {rn rd rm : Reg} {s t : State} (h : swap size rn rd rm s = .next t) :
    (abortsData s (readReg s rn) size s.cpsr.mode.privileged false = true ∧
      t = takeDataAbort (record s (accessOf s (readReg s rn) size s.cpsr.mode.privileged false true none))) ∨
    (misaligned (readReg s rn) size = false ∧
      ∃ v u, readMem (record s (accessOf s (readReg s rn) size s.cpsr.mode.privileged false true none)) (readReg s rn) size = (v, u) ∧
        ((abortsData s (readReg s rn) size s.cpsr.mode.privileged true = true ∧
          t = takeDataAbort (record u (accessOf s (readReg s rn) size s.cpsr.mode.privileged true true
            (some (lanes (readReg s rm) size))))) ∨
         (abortsData s (readReg s rn) size s.cpsr.mode.privileged true = false ∧
          advance (writeReg (writeMem (record u (accessOf s (readReg s rn) size s.cpsr.mode.privileged true true
            (some (lanes (readReg s rm) size)))) (readReg s rn) size (readReg s rm)) rd v) = .next t))) := by
  unfold swap at h
  simp only at h
  split at h
  · rename_i ha
    exact .inl ⟨ha, (Host.Outcome.next.inj h).symm⟩
  · split at h
    · exact absurd h (by simp)
    · rename_i hm
      refine .inr ⟨by simpa using hm, _, _, rfl, ?_⟩
      split at h
      · rename_i ha
        exact .inl ⟨ha, (Host.Outcome.next.inj h).symm⟩
      · rename_i ha
        exact .inr ⟨by simpa using ha, h⟩

theorem endBlock_next {e : BlockEnd} {v : Option Word} {s t : State} (h : endBlock e v s = .next t) :
    (v = none ∧ ((e = .user ∧ advance { s with userLdm := true } = .next t) ∨ (e ≠ .user ∧ advance s = .next t))) ∨
    (∃ w, v = some w ∧
      ((e = .arm ∧ t = branchTo (wordMask w) s) ∨ (e = .thumb ∧ t = branchTo (halfMask w) s) ∨
       (e = .ret ∧ exceptionReturn true w s = .next t) ∨ (e = .user ∧ t = branchTo (wordMask w) s))) := by
  unfold endBlock at h
  split at h
  · split at h
    · rename_i he
      exact .inl ⟨rfl, .inl ⟨he, h⟩⟩
    · rename_i he
      exact .inl ⟨rfl, .inr ⟨he, h⟩⟩
  · rename_i w
    refine .inr ⟨w, rfl, ?_⟩
    cases e
    · exact .inl ⟨rfl, (Host.Outcome.next.inj h).symm⟩
    · exact .inr (.inl ⟨rfl, (Host.Outcome.next.inj h).symm⟩)
    · exact .inr (.inr (.inl ⟨rfl, h⟩))
    · exact .inr (.inr (.inr ⟨rfl, (Host.Outcome.next.inj h).symm⟩))

/-- A block load ends in the Data Abort with the list's registers free, or with all of them loaded. -/
theorem blockLoad_next {e : BlockEnd} {m : Mode} {rn : Reg} {regs : List Reg} {start : Word} {wb : Option Word} {s t : State}
    (h : blockLoad e m rn regs start wb s = .next t) :
    blockRefusal s start regs.length false = none ∧
    ((blockAborts s start regs.length false = true ∧
      t = takeDataAbort (freeRegs m (writeBack (recordReads s (blockAddrs start regs.length)) rn wb) (spoiled s m rn regs))) ∨
     (blockAborts s start regs.length false = false ∧
      ∃ vs u, readWords (recordReads s (blockAddrs start regs.length)) (blockAddrs start regs.length) = (vs, u) ∧
        endBlock e ((regs.zip vs).lookup 15)
          (writeRegs m (writeBack u rn wb) ((regs.zip vs).filter (fun x => x.1 != 15))) = .next t)) := by
  unfold blockLoad at h
  simp only at h
  split at h
  · exact absurd h (by simp)
  · rename_i hn
    refine ⟨hn, ?_⟩
    split at h
    · rename_i ha
      exact .inl ⟨ha, (Host.Outcome.next.inj h).symm⟩
    · rename_i ha
      exact .inr ⟨by simpa using ha, _, _, rfl, h⟩

/-- A block store ends in the Data Abort or past the instruction, with the words that were not aborted stored. -/
theorem blockStore_next {m : Mode} {rn : Reg} {regs : List Reg} {start : Word} {wb : Option Word} {s t : State}
    (h : blockStore m rn regs start wb s = .next t) :
    blockRefusal s start regs.length true = none ∧
    ((blockAborts s start regs.length true = true ∧
      t = takeDataAbort (writeBack (storeWords s ((blockAddrs start regs.length).zip (regs.map (storeValue s m)))) rn wb)) ∨
     (blockAborts s start regs.length true = false ∧
      advance (writeBack (storeWords s ((blockAddrs start regs.length).zip (regs.map (storeValue s m)))) rn wb) = .next t)) := by
  unfold blockStore at h
  simp only at h
  split at h
  · exact absurd h (by simp)
  · rename_i hn
    refine ⟨hn, ?_⟩
    split at h
    · rename_i ha
      exact .inl ⟨ha, (Host.Outcome.next.inj h).symm⟩
    · rename_i ha
      exact .inr ⟨by simpa using ha, h⟩

end Sys2Proof.Machine
end

