-- ==== Sys2Proof/Laws/Exec.lean ====
section
/-! SUPPORT. Which shared operation exec is, for each shape of instruction, once the instruction executes; and what the small
operations of a transfer leave as it was. -/

set_option Elab.async false

namespace Sys2Proof.Machine

open Sys2Proof.Claims

theorem executes_iff (i : Instr) (s : State) :
    executes i s = true ↔ s.cpsr.t = isThumb i ∧ condPassed (condOf i) s.cpsr = true ∧ i.broken = none := by
  simp only [executes, Bool.and_eq_true, Instr.wellFormed, beq_iff_eq, and_assoc]

/-- A data-processing instruction that writes Rd. -/
theorem exec_dataProcess {op : AluOp} {c : Cond} {sf : Bool} {rn rd : Reg} {o : Op2} {s : State}
    (h : executes (dpInstr op c sf rn rd o) s = true) (hop : compares op = false) :
    exec (dpInstr op c sf rn rd o) s = dataProcess op sf (readReg s rn) rd (o.value s) s := by
  obtain ⟨-, h1, h2⟩ := (executes_iff _ _).mp h
  cases op <;> first
    | (cases hop; done)
    | (cases o <;> exact conditional_pass h1 h2)

/-- A compare. -/
theorem exec_compare {op : AluOp} {c : Cond} {sf : Bool} {rn rd : Reg} {o : Op2} {s : State}
    (h : executes (dpInstr op c sf rn rd o) s = true) (hop : compares op = true) :
    exec (dpInstr op c sf rn rd o) s = advance { s with cpsr := flagsOf (alu op (readReg s rn) (o.value s) s.cpsr) s.cpsr } := by
  obtain ⟨-, h1, h2⟩ := (executes_iff _ _).mp h
  cases op <;> first
    | (cases hop; done)
    | (cases o <;> exact conditional_pass h1 h2)

theorem exec_msr {i : Instr} {s : State} {spsr : Bool} {mask : BitVec 4} {v : Word} (hi : msrOf s i = some (spsr, mask, v))
    (h : executes i s = true) : exec i s = writePsr spsr mask v s := by
  obtain ⟨-, h1, h2⟩ := (executes_iff _ _).mp h
  cases i <;> first
    | (cases hi; done)
    | (cases hi; exact conditional_pass h1 h2)

theorem exec_load {i : Instr} {s : State} {x : Xfer} (hi : loadOf s i = some x) (h : executes i s = true) :
    exec i s = loadSingle x.kind x.priv x.rn x.rd x.loc s := by
  obtain ⟨-, h1, h2⟩ := (executes_iff _ _).mp h
  cases i <;> first
    | (cases hi; done)
    | (simp only [loadOf] at hi; cases hi; exact conditional_pass h1 h2)

theorem exec_store {i : Instr} {s : State} {x : Xfer} (hi : storeOf s i = some x) (h : executes i s = true) :
    exec i s = storeSingle x.kind.size x.priv x.rn x.rd x.loc s := by
  obtain ⟨-, h1, h2⟩ := (executes_iff _ _).mp h
  cases i <;> first
    | (cases hi; done)
    | (simp only [storeOf] at hi; cases hi; exact conditional_pass h1 h2)

theorem exec_swap {i : Instr} {s : State} {size : Size} {rn rd rm : Reg} (hi : swapOf i = some (size, rn, rd, rm))
    (h : executes i s = true) : exec i s = swap size rn rd rm s := by
  obtain ⟨-, h1, h2⟩ := (executes_iff _ _).mp h
  cases i <;> first
    | (cases hi; done)
    | (cases hi; exact conditional_pass h1 h2)

/-- How the block loads end. -/
def blockEndOf : Instr → BlockEnd
  | .ldm _ _ _ _ _ _ => .arm
  | .ldmRet _ _ _ _ _ _ => .ret
  | .ldmUser _ _ _ _ _ _ => .user
  | _ => .thumb

theorem hasUserBank_of_bankOk {i : Instr} {s : State} (hb : bankOk i s = true) (hn : needsBank i = true) :
    hasUserBank s.cpsr.mode = true := by
  simpa [bankOk, hn, hasUserBank] using hb

theorem exec_blockLoad {i : Instr} {s : State} {b : Block} (hi : blockLoadOf s i = some b) (h : executes i s = true)
    (hb : bankOk i s = true) : exec i s = blockLoad (blockEndOf i) b.mode b.rn b.regs b.start b.wb s := by
  obtain ⟨-, h1, h2⟩ := (executes_iff _ _).mp h
  have hu : needsBank i = true → hasUserBank s.cpsr.mode = true := hasUserBank_of_bankOk hb
  cases i <;> first
    | (cases hi; done)
    | (cases hi; exact conditional_pass h1 h2)
    | (cases hi; exact (conditional_pass h1 h2).trans (if_pos (hu rfl)))

theorem exec_blockStore {i : Instr} {s : State} {b : Block} (hi : blockStoreOf s i = some b) (h : executes i s = true)
    (hb : bankOk i s = true) : exec i s = blockStore b.mode b.rn b.regs b.start b.wb s := by
  obtain ⟨-, h1, h2⟩ := (executes_iff _ _).mp h
  have hu : needsBank i = true → hasUserBank s.cpsr.mode = true := hasUserBank_of_bankOk hb
  cases i <;> first
    | (cases hi; done)
    | (cases hi; exact conditional_pass h1 h2)
    | (cases hi; exact (conditional_pass h1 h2).trans (if_pos (hu rfl)))

/-! ## What the parts of a transfer change -/

/-- A read draws at most a free value. -/
theorem readMem_frame (s : State) (a : Word) (size : Size) : ∃ d, (readMem s a size).2 = { s with draws := d } := by
  unfold readMem
  split
  · exact ⟨_, rfl⟩
  · exact ⟨s.draws, rfl⟩

/-- A write changes memory only. -/
theorem writeMem_frame (s : State) (a : Word) (size : Size) (v : Word) : ∃ m, writeMem s a size v = { s with mem := m } := by
  unfold writeMem
  split
  · exact ⟨s.mem, rfl⟩
  · exact ⟨_, rfl⟩

theorem readWords_frame (s : State) (l : List Word) : ∃ d, (readWords s l).2 = { s with draws := d } := by
  induction l generalizing s with
  | nil => exact ⟨s.draws, rfl⟩
  | cons a l ih =>
    obtain ⟨d, hd⟩ := readMem_frame s a .word
    obtain ⟨e, he⟩ := ih (readMem s a .word).2
    rw [hd] at he
    exact ⟨e, by simp only [readWords, hd, he]⟩

theorem recordReads_frame (s : State) (l : List Word) : ∃ b, recordReads s l = { s with bus := b } := by
  induction l generalizing s with
  | nil => exact ⟨_, rfl⟩
  | cons a l ih =>
    obtain ⟨b, h⟩ := ih (record s (accessOf s a .word s.cpsr.mode.privileged false false none))
    exact ⟨b, by rw [recordReads, h]; rfl⟩

theorem storeWords_frame (s : State) (l : List (Word × Word)) : ∃ m b, storeWords s l = { s with mem := m, bus := b } := by
  induction l generalizing s with
  | nil => exact ⟨_, _, rfl⟩
  | cons x l ih =>
    simp only [storeWords]
    split
    · obtain ⟨m, b, h⟩ := ih (record s (accessOf s x.1 .word s.cpsr.mode.privileged true false (some x.2)))
      exact ⟨m, b, by rw [h]; rfl⟩
    · obtain ⟨m, hm⟩ := writeMem_frame (record s (accessOf s x.1 .word s.cpsr.mode.privileged true false (some x.2))) x.1 .word x.2
      obtain ⟨m', b, h⟩ := ih (writeMem (record s (accessOf s x.1 .word s.cpsr.mode.privileged true false (some x.2))) x.1 .word x.2)
      exact ⟨m', b, by rw [h, hm]; rfl⟩

/-- The addresses of a block, by index. -/
theorem blockAddrs_eq (start : Word) (n : Nat) :
    blockAddrs start n = (List.range n).map (fun k => start + BitVec.ofNat 32 (4 * k)) := by
  induction n generalizing start with
  | zero => rfl
  | succ n ih =>
    rw [List.range_succ_eq_map, List.map_cons, List.map_map, blockAddrs, ih]
    congr 1
    · simp
    · apply List.map_congr_left
      intro k _
      show start + 4 + BitVec.ofNat 32 (4 * k) = start + BitVec.ofNat 32 (4 * (k + 1))
      bv_omega

/-- A block that fits is not refused. -/
theorem blockRefusal_none (s : State) (b : Block) (write : Bool) (h : b.fits = true) :
    blockRefusal s b.start b.regs.length write = none := by
  simp only [Block.fits, Bool.and_eq_true, decide_eq_true_eq] at h
  have hw : blockWraps b.start b.regs.length = false := by
    simp only [blockWraps, decide_eq_false_iff_not, not_lt]
    exact h.2
  simp [blockRefusal, hw, h.1]

theorem blockAborts_eq (s : State) (b : Block) (write : Bool) : blockAborts s b.start b.regs.length write = b.aborts s write := by
  simp only [blockAborts, blockAddrs_eq, List.any_map, Block.aborts]
  rfl

end Sys2Proof.Machine
end

