-- ==== Sys2Proof/Laws/PerInstr.lean ====
section
/-! SUPPORT. What holds of every instruction as syntax: the length of its encoding and the place of its condition (30_encoding
R140, R142, R143). -/

set_option Elab.async false

namespace Sys2Proof.Laws.EncodingForm

open Sys2Proof.Machine

/-- An ARM word whose bits [31:28] are the condition `c`, or a Thumb halfword. -/
def Form (arm : Bool) (c : Cond) (e : Encoding) : Prop :=
  match e with
  | .arm w => arm = true ∧ w.extractLsb' 28 4 = c.bits
  | .thumb _ => arm = false

/-- A Thumb instruction is one halfword; an ARM instruction is one word whose bits [31:28] are its condition. -/
def Statement (i : Instr) : Prop := Form (!isThumb i) (condOf i) (encode i)

theorem encDpImm_form (c : Cond) (op : BitVec 4) (s : Bool) (rn rd : Reg) (o : RotImm) :
    Form true c (encDpImm c op s rn rd o) := by
  refine ⟨rfl, ?_⟩
  show (c.bits ++ 0b001#3 ++ op ++ bit1 s ++ rn ++ rd ++ o.rotate ++ o.imm8).extractLsb' 28 4 = c.bits
  repeat rw [BitVec.extractLsb'_append_eq_of_le (by decide)]
  exact BitVec.extractLsb'_eq_self

theorem encDpShImm_form (c : Cond) (op : BitVec 4) (s : Bool) (rn rd : Reg) (o : ShImm) :
    Form true c (encDpShImm c op s rn rd o) := by
  refine ⟨rfl, ?_⟩
  show (c.bits ++ 0b000#3 ++ op ++ bit1 s ++ rn ++ rd ++ o.amount ++ o.type.bits ++ 0#1 ++ o.rm).extractLsb' 28 4 = c.bits
  repeat rw [BitVec.extractLsb'_append_eq_of_le (by decide)]
  exact BitVec.extractLsb'_eq_self

theorem encDpShReg_form (c : Cond) (op : BitVec 4) (s : Bool) (rn rd : Reg) (o : ShReg) :
    Form true c (encDpShReg c op s rn rd o) := by
  refine ⟨rfl, ?_⟩
  show (c.bits ++ 0b000#3 ++ op ++ bit1 s ++ rn ++ rd ++ o.rs ++ 0#1 ++ o.type.bits ++ 1#1 ++ o.rm).extractLsb' 28 4 = c.bits
  repeat rw [BitVec.extractLsb'_append_eq_of_le (by decide)]
  exact BitVec.extractLsb'_eq_self

theorem encMul_form (c : Cond) (top : BitVec 7) (s : Bool) (f19 f15 rs rm : Reg) :
    Form true c (encMul c top s f19 f15 rs rm) := by
  refine ⟨rfl, ?_⟩
  show (c.bits ++ top ++ bit1 s ++ f19 ++ f15 ++ rs ++ 0b1001#4 ++ rm).extractLsb' 28 4 = c.bits
  repeat rw [BitVec.extractLsb'_append_eq_of_le (by decide)]
  exact BitVec.extractLsb'_eq_self

theorem encHalfReg_form (c : Cond) (p u w l : Bool) (sh : BitVec 2) (rn rd rm : Reg) :
    Form true c (encHalfReg c p u w l sh rn rd rm) := by
  refine ⟨rfl, ?_⟩
  show (c.bits ++ 0b000#3 ++ bit1 p ++ bit1 u ++ 0#1 ++ bit1 w ++ bit1 l ++ rn ++ rd ++ 0#4 ++ 1#1 ++ sh ++ 1#1 ++ rm).extractLsb' 28 4 = c.bits
  repeat rw [BitVec.extractLsb'_append_eq_of_le (by decide)]
  exact BitVec.extractLsb'_eq_self

theorem encHalfImm_form (c : Cond) (p u w l : Bool) (sh : BitVec 2) (rn rd : Reg) (imm : BitVec 8) :
    Form true c (encHalfImm c p u w l sh rn rd imm) := by
  refine ⟨rfl, ?_⟩
  show (c.bits ++ 0b000#3 ++ bit1 p ++ bit1 u ++ 1#1 ++ bit1 w ++ bit1 l ++ rn ++ rd ++ imm.extractLsb' 4 4 ++ 1#1 ++ sh ++ 1#1 ++ imm.extractLsb' 0 4).extractLsb' 28 4 = c.bits
  repeat rw [BitVec.extractLsb'_append_eq_of_le (by decide)]
  exact BitVec.extractLsb'_eq_self

theorem encSingleImm_form (c : Cond) (p u b w l : Bool) (rn rd : Reg) (imm : BitVec 12) :
    Form true c (encSingleImm c p u b w l rn rd imm) := by
  refine ⟨rfl, ?_⟩
  show (c.bits ++ 0b010#3 ++ bit1 p ++ bit1 u ++ bit1 b ++ bit1 w ++ bit1 l ++ rn ++ rd ++ imm).extractLsb' 28 4 = c.bits
  repeat rw [BitVec.extractLsb'_append_eq_of_le (by decide)]
  exact BitVec.extractLsb'_eq_self

theorem encSingleReg_form (c : Cond) (p u b w l : Bool) (rn rd : Reg) (o : ShImm) :
    Form true c (encSingleReg c p u b w l rn rd o) := by
  refine ⟨rfl, ?_⟩
  show (c.bits ++ 0b011#3 ++ bit1 p ++ bit1 u ++ bit1 b ++ bit1 w ++ bit1 l ++ rn ++ rd ++ o.amount ++ o.type.bits ++ 0#1 ++ o.rm).extractLsb' 28 4 = c.bits
  repeat rw [BitVec.extractLsb'_append_eq_of_le (by decide)]
  exact BitVec.extractLsb'_eq_self

theorem encBlock_form (c : Cond) (p u s w l : Bool) (rn : Reg) (b15 : Bool) (list : BitVec 15) :
    Form true c (encBlock c p u s w l rn b15 list) := by
  refine ⟨rfl, ?_⟩
  show (c.bits ++ 0b100#3 ++ bit1 p ++ bit1 u ++ bit1 s ++ bit1 w ++ bit1 l ++ rn ++ bit1 b15 ++ list).extractLsb' 28 4 = c.bits
  repeat rw [BitVec.extractLsb'_append_eq_of_le (by decide)]
  exact BitVec.extractLsb'_eq_self

theorem encCpTransfer_form (c : Cond) (p u n w l : Bool) (rn crd cp : BitVec 4) (imm : BitVec 8) :
    Form true c (encCpTransfer c p u n w l rn crd cp imm) := by
  refine ⟨rfl, ?_⟩
  show (c.bits ++ 0b110#3 ++ bit1 p ++ bit1 u ++ bit1 n ++ bit1 w ++ bit1 l ++ rn ++ crd ++ cp ++ imm).extractLsb' 28 4 = c.bits
  repeat rw [BitVec.extractLsb'_append_eq_of_le (by decide)]
  exact BitVec.extractLsb'_eq_self

theorem encCpRegister_form (c : Cond) (opc1 : BitVec 3) (l : Bool) (crn rd cp : BitVec 4) (opc2 : BitVec 3) (crm : BitVec 4) :
    Form true c (encCpRegister c opc1 l crn rd cp opc2 crm) := by
  refine ⟨rfl, ?_⟩
  show (c.bits ++ 0b1110#4 ++ opc1 ++ bit1 l ++ crn ++ rd ++ cp ++ opc2 ++ 1#1 ++ crm).extractLsb' 28 4 = c.bits
  repeat rw [BitVec.extractLsb'_append_eq_of_le (by decide)]
  exact BitVec.extractLsb'_eq_self

theorem b (c : Cond) (off : BitVec 24) : Statement (.b c off) := by
  refine ⟨rfl, ?_⟩
  show (c.bits ++ 0b1010#4 ++ off).extractLsb' 28 4 = c.bits
  repeat rw [BitVec.extractLsb'_append_eq_of_le (by decide)]
  exact BitVec.extractLsb'_eq_self

theorem bl (c : Cond) (off : BitVec 24) : Statement (.bl c off) := by
  refine ⟨rfl, ?_⟩
  show (c.bits ++ 0b1011#4 ++ off).extractLsb' 28 4 = c.bits
  repeat rw [BitVec.extractLsb'_append_eq_of_le (by decide)]
  exact BitVec.extractLsb'_eq_self

theorem bx (c : Cond) (rn : Reg) : Statement (.bx c rn) := by
  refine ⟨rfl, ?_⟩
  show (c.bits ++ 0x12FFF1#24 ++ rn).extractLsb' 28 4 = c.bits
  repeat rw [BitVec.extractLsb'_append_eq_of_le (by decide)]
  exact BitVec.extractLsb'_eq_self

theorem andImm (c : Cond) (sf : Bool) (rn : Reg) (rd : Reg) (o : RotImm) : Statement (.andImm c sf rn rd o) := encDpImm_form _ _ _ _ _ _

theorem andShImm (c : Cond) (sf : Bool) (rn : Reg) (rd : Reg) (o : ShImm) : Statement (.andShImm c sf rn rd o) := encDpShImm_form _ _ _ _ _ _

theorem andShReg (c : Cond) (sf : Bool) (rn : Reg) (rd : Reg) (o : ShReg) : Statement (.andShReg c sf rn rd o) := encDpShReg_form _ _ _ _ _ _

theorem eorImm (c : Cond) (sf : Bool) (rn : Reg) (rd : Reg) (o : RotImm) : Statement (.eorImm c sf rn rd o) := encDpImm_form _ _ _ _ _ _

theorem eorShImm (c : Cond) (sf : Bool) (rn : Reg) (rd : Reg) (o : ShImm) : Statement (.eorShImm c sf rn rd o) := encDpShImm_form _ _ _ _ _ _

theorem eorShReg (c : Cond) (sf : Bool) (rn : Reg) (rd : Reg) (o : ShReg) : Statement (.eorShReg c sf rn rd o) := encDpShReg_form _ _ _ _ _ _

theorem subImm (c : Cond) (sf : Bool) (rn : Reg) (rd : Reg) (o : RotImm) : Statement (.subImm c sf rn rd o) := encDpImm_form _ _ _ _ _ _

theorem subShImm (c : Cond) (sf : Bool) (rn : Reg) (rd : Reg) (o : ShImm) : Statement (.subShImm c sf rn rd o) := encDpShImm_form _ _ _ _ _ _

theorem subShReg (c : Cond) (sf : Bool) (rn : Reg) (rd : Reg) (o : ShReg) : Statement (.subShReg c sf rn rd o) := encDpShReg_form _ _ _ _ _ _

theorem rsbImm (c : Cond) (sf : Bool) (rn : Reg) (rd : Reg) (o : RotImm) : Statement (.rsbImm c sf rn rd o) := encDpImm_form _ _ _ _ _ _

theorem rsbShImm (c : Cond) (sf : Bool) (rn : Reg) (rd : Reg) (o : ShImm) : Statement (.rsbShImm c sf rn rd o) := encDpShImm_form _ _ _ _ _ _

theorem rsbShReg (c : Cond) (sf : Bool) (rn : Reg) (rd : Reg) (o : ShReg) : Statement (.rsbShReg c sf rn rd o) := encDpShReg_form _ _ _ _ _ _

theorem addImm (c : Cond) (sf : Bool) (rn : Reg) (rd : Reg) (o : RotImm) : Statement (.addImm c sf rn rd o) := encDpImm_form _ _ _ _ _ _

theorem addShImm (c : Cond) (sf : Bool) (rn : Reg) (rd : Reg) (o : ShImm) : Statement (.addShImm c sf rn rd o) := encDpShImm_form _ _ _ _ _ _

theorem addShReg (c : Cond) (sf : Bool) (rn : Reg) (rd : Reg) (o : ShReg) : Statement (.addShReg c sf rn rd o) := encDpShReg_form _ _ _ _ _ _

theorem adcImm (c : Cond) (sf : Bool) (rn : Reg) (rd : Reg) (o : RotImm) : Statement (.adcImm c sf rn rd o) := encDpImm_form _ _ _ _ _ _

theorem adcShImm (c : Cond) (sf : Bool) (rn : Reg) (rd : Reg) (o : ShImm) : Statement (.adcShImm c sf rn rd o) := encDpShImm_form _ _ _ _ _ _

theorem adcShReg (c : Cond) (sf : Bool) (rn : Reg) (rd : Reg) (o : ShReg) : Statement (.adcShReg c sf rn rd o) := encDpShReg_form _ _ _ _ _ _

theorem sbcImm (c : Cond) (sf : Bool) (rn : Reg) (rd : Reg) (o : RotImm) : Statement (.sbcImm c sf rn rd o) := encDpImm_form _ _ _ _ _ _

theorem sbcShImm (c : Cond) (sf : Bool) (rn : Reg) (rd : Reg) (o : ShImm) : Statement (.sbcShImm c sf rn rd o) := encDpShImm_form _ _ _ _ _ _

theorem sbcShReg (c : Cond) (sf : Bool) (rn : Reg) (rd : Reg) (o : ShReg) : Statement (.sbcShReg c sf rn rd o) := encDpShReg_form _ _ _ _ _ _

theorem rscImm (c : Cond) (sf : Bool) (rn : Reg) (rd : Reg) (o : RotImm) : Statement (.rscImm c sf rn rd o) := encDpImm_form _ _ _ _ _ _

theorem rscShImm (c : Cond) (sf : Bool) (rn : Reg) (rd : Reg) (o : ShImm) : Statement (.rscShImm c sf rn rd o) := encDpShImm_form _ _ _ _ _ _

theorem rscShReg (c : Cond) (sf : Bool) (rn : Reg) (rd : Reg) (o : ShReg) : Statement (.rscShReg c sf rn rd o) := encDpShReg_form _ _ _ _ _ _

theorem tstImm (c : Cond) (rn : Reg) (o : RotImm) : Statement (.tstImm c rn o) := encDpImm_form _ _ _ _ _ _

theorem tstShImm (c : Cond) (rn : Reg) (o : ShImm) : Statement (.tstShImm c rn o) := encDpShImm_form _ _ _ _ _ _

theorem tstShReg (c : Cond) (rn : Reg) (o : ShReg) : Statement (.tstShReg c rn o) := encDpShReg_form _ _ _ _ _ _

theorem teqImm (c : Cond) (rn : Reg) (o : RotImm) : Statement (.teqImm c rn o) := encDpImm_form _ _ _ _ _ _

theorem teqShImm (c : Cond) (rn : Reg) (o : ShImm) : Statement (.teqShImm c rn o) := encDpShImm_form _ _ _ _ _ _

theorem teqShReg (c : Cond) (rn : Reg) (o : ShReg) : Statement (.teqShReg c rn o) := encDpShReg_form _ _ _ _ _ _

theorem cmpImm (c : Cond) (rn : Reg) (o : RotImm) : Statement (.cmpImm c rn o) := encDpImm_form _ _ _ _ _ _

theorem cmpShImm (c : Cond) (rn : Reg) (o : ShImm) : Statement (.cmpShImm c rn o) := encDpShImm_form _ _ _ _ _ _

theorem cmpShReg (c : Cond) (rn : Reg) (o : ShReg) : Statement (.cmpShReg c rn o) := encDpShReg_form _ _ _ _ _ _

theorem cmnImm (c : Cond) (rn : Reg) (o : RotImm) : Statement (.cmnImm c rn o) := encDpImm_form _ _ _ _ _ _

theorem cmnShImm (c : Cond) (rn : Reg) (o : ShImm) : Statement (.cmnShImm c rn o) := encDpShImm_form _ _ _ _ _ _

theorem cmnShReg (c : Cond) (rn : Reg) (o : ShReg) : Statement (.cmnShReg c rn o) := encDpShReg_form _ _ _ _ _ _

theorem orrImm (c : Cond) (sf : Bool) (rn : Reg) (rd : Reg) (o : RotImm) : Statement (.orrImm c sf rn rd o) := encDpImm_form _ _ _ _ _ _

theorem orrShImm (c : Cond) (sf : Bool) (rn : Reg) (rd : Reg) (o : ShImm) : Statement (.orrShImm c sf rn rd o) := encDpShImm_form _ _ _ _ _ _

theorem orrShReg (c : Cond) (sf : Bool) (rn : Reg) (rd : Reg) (o : ShReg) : Statement (.orrShReg c sf rn rd o) := encDpShReg_form _ _ _ _ _ _

theorem movImm (c : Cond) (sf : Bool) (rd : Reg) (o : RotImm) : Statement (.movImm c sf rd o) := encDpImm_form _ _ _ _ _ _

theorem movShImm (c : Cond) (sf : Bool) (rd : Reg) (o : ShImm) : Statement (.movShImm c sf rd o) := encDpShImm_form _ _ _ _ _ _

theorem movShReg (c : Cond) (sf : Bool) (rd : Reg) (o : ShReg) : Statement (.movShReg c sf rd o) := encDpShReg_form _ _ _ _ _ _

theorem bicImm (c : Cond) (sf : Bool) (rn : Reg) (rd : Reg) (o : RotImm) : Statement (.bicImm c sf rn rd o) := encDpImm_form _ _ _ _ _ _

theorem bicShImm (c : Cond) (sf : Bool) (rn : Reg) (rd : Reg) (o : ShImm) : Statement (.bicShImm c sf rn rd o) := encDpShImm_form _ _ _ _ _ _

theorem bicShReg (c : Cond) (sf : Bool) (rn : Reg) (rd : Reg) (o : ShReg) : Statement (.bicShReg c sf rn rd o) := encDpShReg_form _ _ _ _ _ _

theorem mvnImm (c : Cond) (sf : Bool) (rd : Reg) (o : RotImm) : Statement (.mvnImm c sf rd o) := encDpImm_form _ _ _ _ _ _

theorem mvnShImm (c : Cond) (sf : Bool) (rd : Reg) (o : ShImm) : Statement (.mvnShImm c sf rd o) := encDpShImm_form _ _ _ _ _ _

theorem mvnShReg (c : Cond) (sf : Bool) (rd : Reg) (o : ShReg) : Statement (.mvnShReg c sf rd o) := encDpShReg_form _ _ _ _ _ _

theorem mrs (c : Cond) (spsr : Bool) (rd : Reg) : Statement (.mrs c spsr rd) := by
  refine ⟨rfl, ?_⟩
  show (c.bits ++ 0b00010#5 ++ bit1 spsr ++ 0b00#2 ++ 0b1111#4 ++ rd ++ 0#12).extractLsb' 28 4 = c.bits
  repeat rw [BitVec.extractLsb'_append_eq_of_le (by decide)]
  exact BitVec.extractLsb'_eq_self

theorem msrReg (c : Cond) (spsr : Bool) (mask : BitVec 4) (rm : Reg) : Statement (.msrReg c spsr mask rm) := by
  refine ⟨rfl, ?_⟩
  show (c.bits ++ 0b00010#5 ++ bit1 spsr ++ 0b10#2 ++ mask ++ 0b1111#4 ++ 0#8 ++ rm).extractLsb' 28 4 = c.bits
  repeat rw [BitVec.extractLsb'_append_eq_of_le (by decide)]
  exact BitVec.extractLsb'_eq_self

theorem msrImm (c : Cond) (spsr : Bool) (mask : BitVec 4) (o : RotImm) : Statement (.msrImm c spsr mask o) := by
  refine ⟨rfl, ?_⟩
  show (c.bits ++ 0b00110#5 ++ bit1 spsr ++ 0b10#2 ++ mask ++ 0b1111#4 ++ o.rotate ++ o.imm8).extractLsb' 28 4 = c.bits
  repeat rw [BitVec.extractLsb'_append_eq_of_le (by decide)]
  exact BitVec.extractLsb'_eq_self

theorem mul (c : Cond) (sf : Bool) (rd : Reg) (rs : Reg) (rm : Reg) : Statement (.mul c sf rd rs rm) := encMul_form _ _ _ _ _ _ _

theorem mla (c : Cond) (sf : Bool) (rd : Reg) (rn : Reg) (rs : Reg) (rm : Reg) : Statement (.mla c sf rd rn rs rm) := encMul_form _ _ _ _ _ _ _

theorem umull (c : Cond) (sf : Bool) (hi : Reg) (lo : Reg) (rs : Reg) (rm : Reg) : Statement (.umull c sf hi lo rs rm) := encMul_form _ _ _ _ _ _ _

theorem umlal (c : Cond) (sf : Bool) (hi : Reg) (lo : Reg) (rs : Reg) (rm : Reg) : Statement (.umlal c sf hi lo rs rm) := encMul_form _ _ _ _ _ _ _

theorem smull (c : Cond) (sf : Bool) (hi : Reg) (lo : Reg) (rs : Reg) (rm : Reg) : Statement (.smull c sf hi lo rs rm) := encMul_form _ _ _ _ _ _ _

theorem smlal (c : Cond) (sf : Bool) (hi : Reg) (lo : Reg) (rs : Reg) (rm : Reg) : Statement (.smlal c sf hi lo rs rm) := encMul_form _ _ _ _ _ _ _

theorem swp (c : Cond) (rn : Reg) (rd : Reg) (rm : Reg) : Statement (.swp c rn rd rm) := encMul_form _ _ _ _ _ _ _

theorem swpb (c : Cond) (rn : Reg) (rd : Reg) (rm : Reg) : Statement (.swpb c rn rd rm) := encMul_form _ _ _ _ _ _ _

theorem strhReg (c : Cond) (p : Bool) (u : Bool) (w : Bool) (rn : Reg) (rd : Reg) (rm : Reg) : Statement (.strhReg c p u w rn rd rm) := encHalfReg_form _ _ _ _ _ _ _ _ _

theorem strhImm (c : Cond) (p : Bool) (u : Bool) (w : Bool) (rn : Reg) (rd : Reg) (imm : BitVec 8) : Statement (.strhImm c p u w rn rd imm) := encHalfImm_form _ _ _ _ _ _ _ _ _

theorem ldrhReg (c : Cond) (p : Bool) (u : Bool) (w : Bool) (rn : Reg) (rd : Reg) (rm : Reg) : Statement (.ldrhReg c p u w rn rd rm) := encHalfReg_form _ _ _ _ _ _ _ _ _

theorem ldrhImm (c : Cond) (p : Bool) (u : Bool) (w : Bool) (rn : Reg) (rd : Reg) (imm : BitVec 8) : Statement (.ldrhImm c p u w rn rd imm) := encHalfImm_form _ _ _ _ _ _ _ _ _

theorem ldrsbReg (c : Cond) (p : Bool) (u : Bool) (w : Bool) (rn : Reg) (rd : Reg) (rm : Reg) : Statement (.ldrsbReg c p u w rn rd rm) := encHalfReg_form _ _ _ _ _ _ _ _ _

theorem ldrsbImm (c : Cond) (p : Bool) (u : Bool) (w : Bool) (rn : Reg) (rd : Reg) (imm : BitVec 8) : Statement (.ldrsbImm c p u w rn rd imm) := encHalfImm_form _ _ _ _ _ _ _ _ _

theorem ldrshReg (c : Cond) (p : Bool) (u : Bool) (w : Bool) (rn : Reg) (rd : Reg) (rm : Reg) : Statement (.ldrshReg c p u w rn rd rm) := encHalfReg_form _ _ _ _ _ _ _ _ _

theorem ldrshImm (c : Cond) (p : Bool) (u : Bool) (w : Bool) (rn : Reg) (rd : Reg) (imm : BitVec 8) : Statement (.ldrshImm c p u w rn rd imm) := encHalfImm_form _ _ _ _ _ _ _ _ _

theorem strImmPre (c : Cond) (u : Bool) (w : Bool) (rn : Reg) (rd : Reg) (imm : BitVec 12) : Statement (.strImmPre c u w rn rd imm) := encSingleImm_form _ _ _ _ _ _ _ _ _

theorem strImmPost (c : Cond) (u : Bool) (rn : Reg) (rd : Reg) (imm : BitVec 12) : Statement (.strImmPost c u rn rd imm) := encSingleImm_form _ _ _ _ _ _ _ _ _

theorem strtImm (c : Cond) (u : Bool) (rn : Reg) (rd : Reg) (imm : BitVec 12) : Statement (.strtImm c u rn rd imm) := encSingleImm_form _ _ _ _ _ _ _ _ _

theorem strRegPre (c : Cond) (u : Bool) (w : Bool) (rn : Reg) (rd : Reg) (o : ShImm) : Statement (.strRegPre c u w rn rd o) := encSingleReg_form _ _ _ _ _ _ _ _ _

theorem strRegPost (c : Cond) (u : Bool) (rn : Reg) (rd : Reg) (o : ShImm) : Statement (.strRegPost c u rn rd o) := encSingleReg_form _ _ _ _ _ _ _ _ _

theorem strtReg (c : Cond) (u : Bool) (rn : Reg) (rd : Reg) (o : ShImm) : Statement (.strtReg c u rn rd o) := encSingleReg_form _ _ _ _ _ _ _ _ _

theorem ldrImmPre (c : Cond) (u : Bool) (w : Bool) (rn : Reg) (rd : Reg) (imm : BitVec 12) : Statement (.ldrImmPre c u w rn rd imm) := encSingleImm_form _ _ _ _ _ _ _ _ _

theorem ldrImmPost (c : Cond) (u : Bool) (rn : Reg) (rd : Reg) (imm : BitVec 12) : Statement (.ldrImmPost c u rn rd imm) := encSingleImm_form _ _ _ _ _ _ _ _ _

theorem ldrtImm (c : Cond) (u : Bool) (rn : Reg) (rd : Reg) (imm : BitVec 12) : Statement (.ldrtImm c u rn rd imm) := encSingleImm_form _ _ _ _ _ _ _ _ _

theorem ldrRegPre (c : Cond) (u : Bool) (w : Bool) (rn : Reg) (rd : Reg) (o : ShImm) : Statement (.ldrRegPre c u w rn rd o) := encSingleReg_form _ _ _ _ _ _ _ _ _

theorem ldrRegPost (c : Cond) (u : Bool) (rn : Reg) (rd : Reg) (o : ShImm) : Statement (.ldrRegPost c u rn rd o) := encSingleReg_form _ _ _ _ _ _ _ _ _

theorem ldrtReg (c : Cond) (u : Bool) (rn : Reg) (rd : Reg) (o : ShImm) : Statement (.ldrtReg c u rn rd o) := encSingleReg_form _ _ _ _ _ _ _ _ _

theorem strbImmPre (c : Cond) (u : Bool) (w : Bool) (rn : Reg) (rd : Reg) (imm : BitVec 12) : Statement (.strbImmPre c u w rn rd imm) := encSingleImm_form _ _ _ _ _ _ _ _ _

theorem strbImmPost (c : Cond) (u : Bool) (rn : Reg) (rd : Reg) (imm : BitVec 12) : Statement (.strbImmPost c u rn rd imm) := encSingleImm_form _ _ _ _ _ _ _ _ _

theorem strbtImm (c : Cond) (u : Bool) (rn : Reg) (rd : Reg) (imm : BitVec 12) : Statement (.strbtImm c u rn rd imm) := encSingleImm_form _ _ _ _ _ _ _ _ _

theorem strbRegPre (c : Cond) (u : Bool) (w : Bool) (rn : Reg) (rd : Reg) (o : ShImm) : Statement (.strbRegPre c u w rn rd o) := encSingleReg_form _ _ _ _ _ _ _ _ _

theorem strbRegPost (c : Cond) (u : Bool) (rn : Reg) (rd : Reg) (o : ShImm) : Statement (.strbRegPost c u rn rd o) := encSingleReg_form _ _ _ _ _ _ _ _ _

theorem strbtReg (c : Cond) (u : Bool) (rn : Reg) (rd : Reg) (o : ShImm) : Statement (.strbtReg c u rn rd o) := encSingleReg_form _ _ _ _ _ _ _ _ _

theorem ldrbImmPre (c : Cond) (u : Bool) (w : Bool) (rn : Reg) (rd : Reg) (imm : BitVec 12) : Statement (.ldrbImmPre c u w rn rd imm) := encSingleImm_form _ _ _ _ _ _ _ _ _

theorem ldrbImmPost (c : Cond) (u : Bool) (rn : Reg) (rd : Reg) (imm : BitVec 12) : Statement (.ldrbImmPost c u rn rd imm) := encSingleImm_form _ _ _ _ _ _ _ _ _

theorem ldrbtImm (c : Cond) (u : Bool) (rn : Reg) (rd : Reg) (imm : BitVec 12) : Statement (.ldrbtImm c u rn rd imm) := encSingleImm_form _ _ _ _ _ _ _ _ _

theorem ldrbRegPre (c : Cond) (u : Bool) (w : Bool) (rn : Reg) (rd : Reg) (o : ShImm) : Statement (.ldrbRegPre c u w rn rd o) := encSingleReg_form _ _ _ _ _ _ _ _ _

theorem ldrbRegPost (c : Cond) (u : Bool) (rn : Reg) (rd : Reg) (o : ShImm) : Statement (.ldrbRegPost c u rn rd o) := encSingleReg_form _ _ _ _ _ _ _ _ _

theorem ldrbtReg (c : Cond) (u : Bool) (rn : Reg) (rd : Reg) (o : ShImm) : Statement (.ldrbtReg c u rn rd o) := encSingleReg_form _ _ _ _ _ _ _ _ _

theorem undef (c : Cond) (hi : BitVec 20) (lo : BitVec 4) : Statement (.undef c hi lo) := by
  refine ⟨rfl, ?_⟩
  show (c.bits ++ 0b011#3 ++ hi ++ 1#1 ++ lo).extractLsb' 28 4 = c.bits
  repeat rw [BitVec.extractLsb'_append_eq_of_le (by decide)]
  exact BitVec.extractLsb'_eq_self

theorem ldm (c : Cond) (p : Bool) (u : Bool) (w : Bool) (rn : Reg) (list : BitVec 16) : Statement (.ldm c p u w rn list) := encBlock_form _ _ _ _ _ _ _ _ _

theorem ldmRet (c : Cond) (p : Bool) (u : Bool) (w : Bool) (rn : Reg) (list : BitVec 15) : Statement (.ldmRet c p u w rn list) := encBlock_form _ _ _ _ _ _ _ _ _

theorem ldmUser (c : Cond) (p : Bool) (u : Bool) (w : Bool) (rn : Reg) (list : BitVec 15) : Statement (.ldmUser c p u w rn list) := encBlock_form _ _ _ _ _ _ _ _ _

theorem stm (c : Cond) (p : Bool) (u : Bool) (w : Bool) (rn : Reg) (list : BitVec 16) : Statement (.stm c p u w rn list) := encBlock_form _ _ _ _ _ _ _ _ _

theorem stmUser (c : Cond) (p : Bool) (u : Bool) (w : Bool) (rn : Reg) (list : BitVec 16) : Statement (.stmUser c p u w rn list) := encBlock_form _ _ _ _ _ _ _ _ _

theorem stc (c : Cond) (p : Bool) (u : Bool) (n : Bool) (w : Bool) (rn : Reg) (crd : BitVec 4) (cp : BitVec 4) (imm : BitVec 8) : Statement (.stc c p u n w rn crd cp imm) := encCpTransfer_form _ _ _ _ _ _ _ _ _ _

theorem ldc (c : Cond) (p : Bool) (u : Bool) (n : Bool) (w : Bool) (rn : Reg) (crd : BitVec 4) (cp : BitVec 4) (imm : BitVec 8) : Statement (.ldc c p u n w rn crd cp imm) := encCpTransfer_form _ _ _ _ _ _ _ _ _ _

theorem cdp (c : Cond) (opc1 : BitVec 4) (crn : BitVec 4) (crd : BitVec 4) (cp : BitVec 4) (opc2 : BitVec 3) (crm : BitVec 4) : Statement (.cdp c opc1 crn crd cp opc2 crm) := by
  refine ⟨rfl, ?_⟩
  show (c.bits ++ 0b1110#4 ++ opc1 ++ crn ++ crd ++ cp ++ opc2 ++ 0#1 ++ crm).extractLsb' 28 4 = c.bits
  repeat rw [BitVec.extractLsb'_append_eq_of_le (by decide)]
  exact BitVec.extractLsb'_eq_self

theorem mcr (c : Cond) (opc1 : BitVec 3) (crn : BitVec 4) (rd : Reg) (cp : BitVec 4) (opc2 : BitVec 3) (crm : BitVec 4) : Statement (.mcr c opc1 crn rd cp opc2 crm) := encCpRegister_form _ _ _ _ _ _ _ _

theorem mrc (c : Cond) (opc1 : BitVec 3) (crn : BitVec 4) (rd : Reg) (cp : BitVec 4) (opc2 : BitVec 3) (crm : BitVec 4) : Statement (.mrc c opc1 crn rd cp opc2 crm) := encCpRegister_form _ _ _ _ _ _ _ _

theorem swi (c : Cond) (imm : BitVec 24) : Statement (.swi c imm) := by
  refine ⟨rfl, ?_⟩
  show (c.bits ++ 0b1111#4 ++ imm).extractLsb' 28 4 = c.bits
  repeat rw [BitVec.extractLsb'_append_eq_of_le (by decide)]
  exact BitVec.extractLsb'_eq_self

theorem tLslImm (imm : BitVec 5) (rs : LoReg) (rd : LoReg) : Statement (.tLslImm imm rs rd) := rfl

theorem tLsrImm (imm : BitVec 5) (rs : LoReg) (rd : LoReg) : Statement (.tLsrImm imm rs rd) := rfl

theorem tAsrImm (imm : BitVec 5) (rs : LoReg) (rd : LoReg) : Statement (.tAsrImm imm rs rd) := rfl

theorem tAddReg (rn : LoReg) (rs : LoReg) (rd : LoReg) : Statement (.tAddReg rn rs rd) := rfl

theorem tSubReg (rn : LoReg) (rs : LoReg) (rd : LoReg) : Statement (.tSubReg rn rs rd) := rfl

theorem tAddImm3 (imm : BitVec 3) (rs : LoReg) (rd : LoReg) : Statement (.tAddImm3 imm rs rd) := rfl

theorem tSubImm3 (imm : BitVec 3) (rs : LoReg) (rd : LoReg) : Statement (.tSubImm3 imm rs rd) := rfl

theorem tMovImm (rd : LoReg) (imm : BitVec 8) : Statement (.tMovImm rd imm) := rfl

theorem tCmpImm (rd : LoReg) (imm : BitVec 8) : Statement (.tCmpImm rd imm) := rfl

theorem tAddImm8 (rd : LoReg) (imm : BitVec 8) : Statement (.tAddImm8 rd imm) := rfl

theorem tSubImm8 (rd : LoReg) (imm : BitVec 8) : Statement (.tSubImm8 rd imm) := rfl

theorem tAnd (rs : LoReg) (rd : LoReg) : Statement (.tAnd rs rd) := rfl

theorem tEor (rs : LoReg) (rd : LoReg) : Statement (.tEor rs rd) := rfl

theorem tLslReg (rs : LoReg) (rd : LoReg) : Statement (.tLslReg rs rd) := rfl

theorem tLsrReg (rs : LoReg) (rd : LoReg) : Statement (.tLsrReg rs rd) := rfl

theorem tAsrReg (rs : LoReg) (rd : LoReg) : Statement (.tAsrReg rs rd) := rfl

theorem tAdc (rs : LoReg) (rd : LoReg) : Statement (.tAdc rs rd) := rfl

theorem tSbc (rs : LoReg) (rd : LoReg) : Statement (.tSbc rs rd) := rfl

theorem tRorReg (rs : LoReg) (rd : LoReg) : Statement (.tRorReg rs rd) := rfl

theorem tTst (rs : LoReg) (rd : LoReg) : Statement (.tTst rs rd) := rfl

theorem tNeg (rs : LoReg) (rd : LoReg) : Statement (.tNeg rs rd) := rfl

theorem tCmpReg (rs : LoReg) (rd : LoReg) : Statement (.tCmpReg rs rd) := rfl

theorem tCmn (rs : LoReg) (rd : LoReg) : Statement (.tCmn rs rd) := rfl

theorem tOrr (rs : LoReg) (rd : LoReg) : Statement (.tOrr rs rd) := rfl

theorem tMul (rs : LoReg) (rd : LoReg) : Statement (.tMul rs rd) := rfl

theorem tBic (rs : LoReg) (rd : LoReg) : Statement (.tBic rs rd) := rfl

theorem tMvn (rs : LoReg) (rd : LoReg) : Statement (.tMvn rs rd) := rfl

theorem tAddHd (hd : LoReg) (rs : Reg) : Statement (.tAddHd hd rs) := rfl

theorem tAddHs (rd : LoReg) (hs : LoReg) : Statement (.tAddHs rd hs) := rfl

theorem tCmpHd (hd : LoReg) (rs : Reg) : Statement (.tCmpHd hd rs) := rfl

theorem tCmpHs (rd : LoReg) (hs : LoReg) : Statement (.tCmpHs rd hs) := rfl

theorem tMovHd (hd : LoReg) (rs : Reg) : Statement (.tMovHd hd rs) := rfl

theorem tMovHs (rd : LoReg) (hs : LoReg) : Statement (.tMovHs rd hs) := rfl

theorem tBx (rs : Reg) : Statement (.tBx rs) := rfl

theorem tLdrPc (rd : LoReg) (imm : BitVec 8) : Statement (.tLdrPc rd imm) := rfl

theorem tStrReg (ro : LoReg) (rb : LoReg) (rd : LoReg) : Statement (.tStrReg ro rb rd) := rfl

theorem tStrbReg (ro : LoReg) (rb : LoReg) (rd : LoReg) : Statement (.tStrbReg ro rb rd) := rfl

theorem tLdrReg (ro : LoReg) (rb : LoReg) (rd : LoReg) : Statement (.tLdrReg ro rb rd) := rfl

theorem tLdrbReg (ro : LoReg) (rb : LoReg) (rd : LoReg) : Statement (.tLdrbReg ro rb rd) := rfl

theorem tStrhReg (ro : LoReg) (rb : LoReg) (rd : LoReg) : Statement (.tStrhReg ro rb rd) := rfl

theorem tLdrhReg (ro : LoReg) (rb : LoReg) (rd : LoReg) : Statement (.tLdrhReg ro rb rd) := rfl

theorem tLdsbReg (ro : LoReg) (rb : LoReg) (rd : LoReg) : Statement (.tLdsbReg ro rb rd) := rfl

theorem tLdshReg (ro : LoReg) (rb : LoReg) (rd : LoReg) : Statement (.tLdshReg ro rb rd) := rfl

theorem tStrImm (imm : BitVec 5) (rb : LoReg) (rd : LoReg) : Statement (.tStrImm imm rb rd) := rfl

theorem tLdrImm (imm : BitVec 5) (rb : LoReg) (rd : LoReg) : Statement (.tLdrImm imm rb rd) := rfl

theorem tStrbImm (imm : BitVec 5) (rb : LoReg) (rd : LoReg) : Statement (.tStrbImm imm rb rd) := rfl

theorem tLdrbImm (imm : BitVec 5) (rb : LoReg) (rd : LoReg) : Statement (.tLdrbImm imm rb rd) := rfl

theorem tStrhImm (imm : BitVec 5) (rb : LoReg) (rd : LoReg) : Statement (.tStrhImm imm rb rd) := rfl

theorem tLdrhImm (imm : BitVec 5) (rb : LoReg) (rd : LoReg) : Statement (.tLdrhImm imm rb rd) := rfl

theorem tStrSp (rd : LoReg) (imm : BitVec 8) : Statement (.tStrSp rd imm) := rfl

theorem tLdrSp (rd : LoReg) (imm : BitVec 8) : Statement (.tLdrSp rd imm) := rfl

theorem tAddPc (rd : LoReg) (imm : BitVec 8) : Statement (.tAddPc rd imm) := rfl

theorem tAddSp (rd : LoReg) (imm : BitVec 8) : Statement (.tAddSp rd imm) := rfl

theorem tAddSpImm (imm : BitVec 7) : Statement (.tAddSpImm imm) := rfl

theorem tSubSpImm (imm : BitVec 7) : Statement (.tSubSpImm imm) := rfl

theorem tPush (r : Bool) (list : BitVec 8) : Statement (.tPush r list) := rfl

theorem tPop (r : Bool) (list : BitVec 8) : Statement (.tPop r list) := rfl

theorem tStmia (rb : LoReg) (list : BitVec 8) : Statement (.tStmia rb list) := rfl

theorem tLdmia (rb : LoReg) (list : BitVec 8) : Statement (.tLdmia rb list) := rfl

theorem tBeq (off : BitVec 8) : Statement (.tBeq off) := rfl

theorem tBne (off : BitVec 8) : Statement (.tBne off) := rfl

theorem tBcs (off : BitVec 8) : Statement (.tBcs off) := rfl

theorem tBcc (off : BitVec 8) : Statement (.tBcc off) := rfl

theorem tBmi (off : BitVec 8) : Statement (.tBmi off) := rfl

theorem tBpl (off : BitVec 8) : Statement (.tBpl off) := rfl

theorem tBvs (off : BitVec 8) : Statement (.tBvs off) := rfl

theorem tBvc (off : BitVec 8) : Statement (.tBvc off) := rfl

theorem tBhi (off : BitVec 8) : Statement (.tBhi off) := rfl

theorem tBls (off : BitVec 8) : Statement (.tBls off) := rfl

theorem tBge (off : BitVec 8) : Statement (.tBge off) := rfl

theorem tBlt (off : BitVec 8) : Statement (.tBlt off) := rfl

theorem tBgt (off : BitVec 8) : Statement (.tBgt off) := rfl

theorem tBle (off : BitVec 8) : Statement (.tBle off) := rfl

theorem tSwi (imm : BitVec 8) : Statement (.tSwi imm) := rfl

theorem tB (off : BitVec 11) : Statement (.tB off) := rfl

theorem tBlHi (off : BitVec 11) : Statement (.tBlHi off) := rfl

theorem tBlLo (off : BitVec 11) : Statement (.tBlLo off) := rfl

end Sys2Proof.Laws.EncodingForm
end

