-- ==== Sys2Proof/Tests/Slice0.lean ====
section
/-! SUPPORT. Tests: an ill-formed term for each restriction, a word written out from its encoding for each constructor, one-step
vectors of spec/95_test_vectors.md and 96_test_vectors_thumb_exceptions.md under their own numbers, and for each statement that has
hypotheses a state and operands that meet them. -/

set_option Elab.async false

namespace Sys2Proof.Tests

open Sys2Proof.Machine Sys2Proof.Claims

/-! ## Building a small state -/

/-- The defaults of 95_test_vectors section 0: a mode, a pc, NZCV, ARM state, interrupts enabled. -/
def start (m : Mode) (pc : Word) (f : BitVec 4) : State :=
  { State.reset with
    pc := pc
    cpsr := { n := f.getLsbD 3, z := f.getLsbD 2, c := f.getLsbD 1, v := f.getLsbD 0, reserved := 0, i := false, f := false,
              t := false, mode := m } }

/-- BIGEND HIGH. -/
def big (s : State) : State := { s with env := { s.env with bigEndian := true } }

/-- I and F. -/
def masks (i f : Bool) (s : State) : State := { s with cpsr := { s.cpsr with i := i, f := f } }

/-- A register of the current mode. -/
def reg (k : Reg) (v : Word) (s : State) : State := writeReg s k v

/-- A register of the User bank. -/
def usr (k : Reg) (v : Word) (s : State) : State := writeBank s .usr k v

/-- A word of memory. -/
def word (a v : Word) (s : State) : State := { s with mem := memWrite s.env.bigEndian s.mem a v .word }

/-- The SPSR of the current mode. -/
def spsr (v : Word) (s : State) : State := { s with spsrs := s.spsrs.set s.cpsr.mode v }

/-- An ARM word at the pc. -/
def arm (w : Nat) (s : State) : State := s.withFetchWord 32 w

/-- A Thumb halfword at the pc, in Thumb state. -/
def thumb (w : Nat) (s : State) : State := s.withFetchWord 16 w

/-- The platform aborts the data accesses at the addresses from lo to hi - 1. -/
def abortAt (lo hi : Nat) (s : State) : State :=
  let r : AbortRule := ⟨lo, hi, true, true, true, false, true, true, true, true, true, false⟩
  { s with env := { s.env with abortRules := [r] } }

/-- The platform aborts the fetches at the addresses from lo to hi - 1. -/
def abortFetch (lo hi : Nat) (s : State) : State :=
  let r : AbortRule := ⟨lo, hi, true, true, true, true, false, true, true, true, true, false⟩
  { s with env := { s.env with abortRules := [r] } }

/-- A region of the address space that is not RAM. -/
def region (lo hi : Nat) (k : RegionKind) (s : State) : State := { s with env := { s.env with regions := [⟨lo, hi, k⟩] } }

/-- The lines at the next boundary. -/
def linesNow (nRESET nFIQ nIRQ : Bool) (s : State) : State := { s with inputs := [⟨nRESET, nFIQ, nIRQ, none⟩] }

/-- nRESET falls in the middle of the step, after n data accesses (70_reset_and_hazards R522). -/
def resetIn (n : Nat) (s : State) : State := { s with inputs := [⟨true, true, true, some n⟩] }

/-- N, Z, C, V as four bits. -/
def nzcv (s : State) : BitVec 4 := s.cpsr.toWord.extractLsb' 28 4

/-- A result is a next state of which p holds. -/
def nextAnd (p : State → Bool) : Result → Bool
  | .next t => p t
  | _ => false

/-- One step answers a next state of which p holds. -/
def goes (s : State) (p : State → Bool) : Bool := nextAnd p (step s)

/-- One step is refused. -/
def stops (s : State) : Bool :=
  match step s with
  | .refused _ => true
  | _ => false

/-- A checked next state is a next state. -/
theorem nextAnd_exists {p : State → Bool} {r : Result} (h : nextAnd p r = true) : ∃ t, r = .next t ∧ p t = true := by
  cases r <;> simp_all [nextAnd]

/-! ## Well-formedness: an ill-formed term for each restriction, and a well-formed neighbour -/

/-- R194, R204, R241, R242, R377. -/
theorem test_wellFormed_pcRule :
    [.bx .al 15, .andShReg .al false 1 2 ⟨15, .lsl, 3⟩, .movShReg .al false 15 ⟨1, .lsl, 3⟩, .mrs .al false 15, .msrReg .al false 0b1001 15, .tCmpHd 7 8].all (fun i : Instr => !i.wellFormed) = true ∧ Instr.wellFormed (.bx .al 14) = true := by decide

/-- R258. -/
theorem test_wellFormed_mulRule :
    [.mul .al false 15 1 2, .mul .al false 0 1 0, .mla .al false 0 15 1 2].all (fun i : Instr => !i.wellFormed) = true ∧ Instr.wellFormed (.mul .al false 0 0 1) = true := by decide

/-- R258. -/
theorem test_wellFormed_mulLongRule :
    [.umull .al false 1 1 2 3, .umlal .al false 1 0 2 1, .smull .al false 1 0 2 0, .smlal .al false 15 0 2 3].all (fun i : Instr => !i.wellFormed) = true ∧ Instr.wellFormed (.umull .al false 1 0 1 2) = true := by decide

/-- R312. -/
theorem test_wellFormed_swapRule :
    [.swp .al 2 2 1, .swp .al 2 0 2, .swpb .al 2 15 1].all (fun i : Instr => !i.wellFormed) = true ∧ Instr.wellFormed (.swp .al 2 0 0) = true := by decide

/-- R269, R273, R274. -/
theorem test_wellFormed_singleImmRule :
    [.ldrbImmPre .al true false 1 15 0, .ldrImmPre .al true true 15 0 4, .ldrImmPost .al true 1 1 4, .ldrtImm .al true 1 15 4].all (fun i : Instr => !i.wellFormed) = true ∧ Instr.wellFormed (.ldrImmPre .al true false 1 15 4) = true := by decide

/-- R273, R274. -/
theorem test_wellFormed_singleRegRule :
    [.ldrRegPre .al true false 1 0 ⟨0, .lsl, 15⟩, .strbRegPre .al true false 1 15 ⟨0, .lsl, 2⟩, .ldrRegPre .al true true 15 0 ⟨0, .lsl, 2⟩, .ldrRegPre .al true true 1 1 ⟨0, .lsl, 2⟩, .strRegPost .al true 1 0 ⟨0, .lsl, 1⟩].all (fun i : Instr => !i.wellFormed) = true ∧ Instr.wellFormed (.ldrRegPre .al true true 1 0 ⟨0, .lsl, 1⟩) = true := by decide

/-- R280, R285. -/
theorem test_wellFormed_halfImmRule :
    [.ldrhImm .al false true true 1 0 2, .strhImm .al true true false 1 15 2, .ldrsbImm .al false true false 15 0 2, .ldrshImm .al true true true 1 1 2].all (fun i : Instr => !i.wellFormed) = true ∧ Instr.wellFormed (.ldrhImm .al true true false 15 0 2) = true := by decide

/-- R280, R285. -/
theorem test_wellFormed_halfRegRule :
    [.ldrhReg .al false true true 1 0 2, .strhReg .al true true false 1 0 15, .ldrsbReg .al true true true 15 0 2, .ldrshReg .al false true false 1 1 2, .strhReg .al false true false 1 0 1].all (fun i : Instr => !i.wellFormed) = true ∧ Instr.wellFormed (.ldrhReg .al true true false 1 1 1) = true := by decide

/-- R308. -/
theorem test_wellFormed_ldmRule :
    [.ldm .al false true false 0 0, .ldm .al false true false 15 1, .ldm .al false true true 5 0b100000, .ldmRet .al false true true 5 0b100000].all (fun i : Instr => !i.wellFormed) = true ∧ Instr.wellFormed (.ldm .al false true false 5 0b100000) = true := by decide

/-- R308. -/
theorem test_wellFormed_stmRule :
    [.stm .al false true false 0 0, .stm .al false true false 15 1, .stm .al false true true 1 0b11].all (fun i : Instr => !i.wellFormed) = true ∧ Instr.wellFormed (.stm .al false true true 0 0b11) = true := by decide

/-- R304, R306, R308. -/
theorem test_wellFormed_userBankRule :
    [.ldmUser .al false true false 0 0, .stmUser .al false true false 15 1, .ldmUser .al false true true 0 0b110].all (fun i : Instr => !i.wellFormed) = true ∧ Instr.wellFormed (.stmUser .al false true false 0 0b110) = true := by decide

/-- R329. -/
theorem test_wellFormed_coprocRule :
    [.mrc .al 0 0 0 14 0 0, .cdp .al 0 0 0 14 0 0, .ldc .al true true false false 0 0 14 0].all (fun i : Instr => !i.wellFormed) = true ∧ Instr.wellFormed (.mcr .al 0 0 0 15 0 0) = true := by decide

/-- R365. -/
theorem test_wellFormed_thumbMulRule :
    [.tMul 3 3].all (fun i : Instr => !i.wellFormed) = true ∧ Instr.wellFormed (.tMul 3 2) = true := by decide

/-- R424, R425. -/
theorem test_wellFormed_stackRule :
    [.tPush false 0, .tPop false 0].all (fun i : Instr => !i.wellFormed) = true ∧ Instr.wellFormed (.tPush true 0) = true := by decide

/-- R426. -/
theorem test_wellFormed_stmiaRule :
    [.tStmia 1 0, .tStmia 1 0b11].all (fun i : Instr => !i.wellFormed) = true ∧ Instr.wellFormed (.tStmia 0 0b11) = true := by decide

/-- R427. -/
theorem test_wellFormed_ldmiaRule :
    [.tLdmia 1 0, .tLdmia 0 0b11].all (fun i : Instr => !i.wellFormed) = true ∧ Instr.wellFormed (.tLdmia 2 0b11) = true := by decide

/-! ## Decoding: every constructor, by a word written out from the table's encoding of its row -/

theorem test_decode_branch_and_exchange :
    decodeArm 0b0000_1010_101100000000000000000010#32 = .ok (.b .eq 0xb00002) ∧
    decodeArm 0b0001_1011_101100000000000000000010#32 = .ok (.bl .ne 0xb00002) ∧
    decodeArm 0b0010_000100101111111111110001_0101#32 = .ok (.bx .cs 5) := by decide +kernel

theorem test_decode_data_processing_and_eor_sub :
    decodeArm 0b0011_0010000_1_0101_0110_0100_10110010#32 = .ok (.andImm .cc true 5 6 ⟨4, 0xb2⟩) ∧
    decodeArm 0b0100_0000000_0_0101_0110_10110_01_0_0011#32 = .ok (.andShImm .mi false 5 6 ⟨22, .lsr, 3⟩) ∧
    decodeArm 0b0101_0000000_1_0101_0110_1001_0_10_1_0011#32 = .ok (.andShReg .pl true 5 6 ⟨9, .asr, 3⟩) ∧
    decodeArm 0b0110_0010001_0_0101_0110_0100_10110010#32 = .ok (.eorImm .vs false 5 6 ⟨4, 0xb2⟩) ∧
    decodeArm 0b0111_0000001_1_0101_0110_10110_00_0_0011#32 = .ok (.eorShImm .vc true 5 6 ⟨22, .lsl, 3⟩) ∧
    decodeArm 0b1000_0000001_0_0101_0110_1001_0_01_1_0011#32 = .ok (.eorShReg .hi false 5 6 ⟨9, .lsr, 3⟩) ∧
    decodeArm 0b1001_0010010_1_0101_0110_0100_10110010#32 = .ok (.subImm .ls true 5 6 ⟨4, 0xb2⟩) ∧
    decodeArm 0b1010_0000010_0_0101_0110_10110_11_0_0011#32 = .ok (.subShImm .ge false 5 6 ⟨22, .ror, 3⟩) ∧
    decodeArm 0b1011_0000010_1_0101_0110_1001_0_00_1_0011#32 = .ok (.subShReg .lt true 5 6 ⟨9, .lsl, 3⟩) := by decide +kernel

theorem test_decode_data_processing_rsb_add_adc :
    decodeArm 0b1100_0010011_0_0101_0110_0100_10110010#32 = .ok (.rsbImm .gt false 5 6 ⟨4, 0xb2⟩) ∧
    decodeArm 0b1101_0000011_1_0101_0110_10110_10_0_0011#32 = .ok (.rsbShImm .le true 5 6 ⟨22, .asr, 3⟩) ∧
    decodeArm 0b1110_0000011_0_0101_0110_1001_0_11_1_0011#32 = .ok (.rsbShReg .al false 5 6 ⟨9, .ror, 3⟩) ∧
    decodeArm 0b0000_0010100_1_0101_0110_0100_10110010#32 = .ok (.addImm .eq true 5 6 ⟨4, 0xb2⟩) ∧
    decodeArm 0b0001_0000100_0_0101_0110_10110_01_0_0011#32 = .ok (.addShImm .ne false 5 6 ⟨22, .lsr, 3⟩) ∧
    decodeArm 0b0010_0000100_1_0101_0110_1001_0_10_1_0011#32 = .ok (.addShReg .cs true 5 6 ⟨9, .asr, 3⟩) ∧
    decodeArm 0b0011_0010101_0_0101_0110_0100_10110010#32 = .ok (.adcImm .cc false 5 6 ⟨4, 0xb2⟩) ∧
    decodeArm 0b0100_0000101_1_0101_0110_10110_00_0_0011#32 = .ok (.adcShImm .mi true 5 6 ⟨22, .lsl, 3⟩) ∧
    decodeArm 0b0101_0000101_0_0101_0110_1001_0_01_1_0011#32 = .ok (.adcShReg .pl false 5 6 ⟨9, .lsr, 3⟩) := by decide +kernel

theorem test_decode_data_processing_sbc_rsc_tst :
    decodeArm 0b0110_0010110_1_0101_0110_0100_10110010#32 = .ok (.sbcImm .vs true 5 6 ⟨4, 0xb2⟩) ∧
    decodeArm 0b0111_0000110_0_0101_0110_10110_11_0_0011#32 = .ok (.sbcShImm .vc false 5 6 ⟨22, .ror, 3⟩) ∧
    decodeArm 0b1000_0000110_1_0101_0110_1001_0_00_1_0011#32 = .ok (.sbcShReg .hi true 5 6 ⟨9, .lsl, 3⟩) ∧
    decodeArm 0b1001_0010111_0_0101_0110_0100_10110010#32 = .ok (.rscImm .ls false 5 6 ⟨4, 0xb2⟩) ∧
    decodeArm 0b1010_0000111_1_0101_0110_10110_10_0_0011#32 = .ok (.rscShImm .ge true 5 6 ⟨22, .asr, 3⟩) ∧
    decodeArm 0b1011_0000111_0_0101_0110_1001_0_11_1_0011#32 = .ok (.rscShReg .lt false 5 6 ⟨9, .ror, 3⟩) ∧
    decodeArm 0b1100_00110001_0101_0000_0100_10110010#32 = .ok (.tstImm .gt 5 ⟨4, 0xb2⟩) ∧
    decodeArm 0b1101_00010001_0101_0000_10110_01_0_0011#32 = .ok (.tstShImm .le 5 ⟨22, .lsr, 3⟩) ∧
    decodeArm 0b1110_00010001_0101_0000_1001_0_10_1_0011#32 = .ok (.tstShReg .al 5 ⟨9, .asr, 3⟩) := by decide +kernel

theorem test_decode_data_processing_teq_cmp_cmn :
    decodeArm 0b0000_00110011_0101_0000_0100_10110010#32 = .ok (.teqImm .eq 5 ⟨4, 0xb2⟩) ∧
    decodeArm 0b0001_00010011_0101_0000_10110_00_0_0011#32 = .ok (.teqShImm .ne 5 ⟨22, .lsl, 3⟩) ∧
    decodeArm 0b0010_00010011_0101_0000_1001_0_01_1_0011#32 = .ok (.teqShReg .cs 5 ⟨9, .lsr, 3⟩) ∧
    decodeArm 0b0011_00110101_0101_0000_0100_10110010#32 = .ok (.cmpImm .cc 5 ⟨4, 0xb2⟩) ∧
    decodeArm 0b0100_00010101_0101_0000_10110_11_0_0011#32 = .ok (.cmpShImm .mi 5 ⟨22, .ror, 3⟩) ∧
    decodeArm 0b0101_00010101_0101_0000_1001_0_00_1_0011#32 = .ok (.cmpShReg .pl 5 ⟨9, .lsl, 3⟩) ∧
    decodeArm 0b0110_00110111_0101_0000_0100_10110010#32 = .ok (.cmnImm .vs 5 ⟨4, 0xb2⟩) ∧
    decodeArm 0b0111_00010111_0101_0000_10110_10_0_0011#32 = .ok (.cmnShImm .vc 5 ⟨22, .asr, 3⟩) ∧
    decodeArm 0b1000_00010111_0101_0000_1001_0_11_1_0011#32 = .ok (.cmnShReg .hi 5 ⟨9, .ror, 3⟩) := by decide +kernel

theorem test_decode_data_processing_orr_mov :
    decodeArm 0b1001_0011100_1_0101_0110_0100_10110010#32 = .ok (.orrImm .ls true 5 6 ⟨4, 0xb2⟩) ∧
    decodeArm 0b1010_0001100_0_0101_0110_10110_01_0_0011#32 = .ok (.orrShImm .ge false 5 6 ⟨22, .lsr, 3⟩) ∧
    decodeArm 0b1011_0001100_1_0101_0110_1001_0_10_1_0011#32 = .ok (.orrShReg .lt true 5 6 ⟨9, .asr, 3⟩) ∧
    decodeArm 0b1100_0011101_0_0000_0110_0100_10110010#32 = .ok (.movImm .gt false 6 ⟨4, 0xb2⟩) ∧
    decodeArm 0b1101_0001101_1_0000_0110_10110_00_0_0011#32 = .ok (.movShImm .le true 6 ⟨22, .lsl, 3⟩) ∧
    decodeArm 0b1110_0001101_0_0000_0110_1001_0_01_1_0011#32 = .ok (.movShReg .al false 6 ⟨9, .lsr, 3⟩) := by decide +kernel

theorem test_decode_data_processing_bic_mvn :
    decodeArm 0b0000_0011110_1_0101_0110_0100_10110010#32 = .ok (.bicImm .eq true 5 6 ⟨4, 0xb2⟩) ∧
    decodeArm 0b0001_0001110_0_0101_0110_10110_11_0_0011#32 = .ok (.bicShImm .ne false 5 6 ⟨22, .ror, 3⟩) ∧
    decodeArm 0b0010_0001110_1_0101_0110_1001_0_00_1_0011#32 = .ok (.bicShReg .cs true 5 6 ⟨9, .lsl, 3⟩) ∧
    decodeArm 0b0011_0011111_0_0000_0110_0100_10110010#32 = .ok (.mvnImm .cc false 6 ⟨4, 0xb2⟩) ∧
    decodeArm 0b0100_0001111_1_0000_0110_10110_10_0_0011#32 = .ok (.mvnShImm .mi true 6 ⟨22, .asr, 3⟩) ∧
    decodeArm 0b0101_0001111_0_0000_0110_1001_0_11_1_0011#32 = .ok (.mvnShReg .pl false 6 ⟨9, .ror, 3⟩) := by decide +kernel

theorem test_decode_psr_and_multiply :
    decodeArm 0b0110_00010_1_001111_0110_000000000000#32 = .ok (.mrs .vs true 6) ∧
    decodeArm 0b0111_00010_0_10_1001_111100000000_0011#32 = .ok (.msrReg .vc false 9 3) ∧
    decodeArm 0b1000_00110_1_10_1001_1111_0100_10110010#32 = .ok (.msrImm .hi true 9 ⟨4, 0xb2⟩) ∧
    decodeArm 0b1001_0000000_0_0110_0000_1001_1001_0011#32 = .ok (.mul .ls false 6 9 3) ∧
    decodeArm 0b1010_0000001_1_0110_0101_1001_1001_0011#32 = .ok (.mla .ge true 6 5 9 3) ∧
    decodeArm 0b1011_0000100_0_0101_0110_1001_1001_0011#32 = .ok (.umull .lt false 5 6 9 3) ∧
    decodeArm 0b1100_0000101_1_0101_0110_1001_1001_0011#32 = .ok (.umlal .gt true 5 6 9 3) ∧
    decodeArm 0b1101_0000110_0_0101_0110_1001_1001_0011#32 = .ok (.smull .le false 5 6 9 3) ∧
    decodeArm 0b1110_0000111_1_0101_0110_1001_1001_0011#32 = .ok (.smlal .al true 5 6 9 3) ∧
    decodeArm 0b0000_00010000_0101_0110_00001001_0011#32 = .ok (.swp .eq 5 6 3) ∧
    decodeArm 0b0001_00010100_0101_0110_00001001_0011#32 = .ok (.swpb .ne 5 6 3) := by decide +kernel

theorem test_decode_halfword :
    decodeArm 0b0010_000_0_1_0_1_0_0101_0110_00001011_0011#32 = .ok (.strhReg .cs false true true 5 6 3) ∧
    decodeArm 0b0011_000_1_0_1_0_0_0101_0110_1011_1011_0010#32 = .ok (.strhImm .cc true false false 5 6 0xb2) ∧
    decodeArm 0b0100_000_0_1_0_1_1_0101_0110_00001011_0011#32 = .ok (.ldrhReg .mi false true true 5 6 3) ∧
    decodeArm 0b0101_000_1_0_1_0_1_0101_0110_1011_1011_0010#32 = .ok (.ldrhImm .pl true false false 5 6 0xb2) ∧
    decodeArm 0b0110_000_0_1_0_1_1_0101_0110_00001101_0011#32 = .ok (.ldrsbReg .vs false true true 5 6 3) ∧
    decodeArm 0b0111_000_1_0_1_0_1_0101_0110_1011_1101_0010#32 = .ok (.ldrsbImm .vc true false false 5 6 0xb2) ∧
    decodeArm 0b1000_000_0_1_0_1_1_0101_0110_00001111_0011#32 = .ok (.ldrshReg .hi false true true 5 6 3) ∧
    decodeArm 0b1001_000_1_0_1_0_1_0101_0110_1011_1111_0010#32 = .ok (.ldrshImm .ls true false false 5 6 0xb2) := by decide +kernel

theorem test_decode_str_ldr :
    decodeArm 0b1010_0101_1_0_1_0_0101_0110_101100100001#32 = .ok (.strImmPre .ge true true 5 6 0xb21) ∧
    decodeArm 0b1011_0100_0_000_0101_0110_101100100001#32 = .ok (.strImmPost .lt false 5 6 0xb21) ∧
    decodeArm 0b1100_0100_1_010_0101_0110_101100100001#32 = .ok (.strtImm .gt true 5 6 0xb21) ∧
    decodeArm 0b1101_0111_0_0_0_0_0101_0110_10110_10_0_0011#32 = .ok (.strRegPre .le false false 5 6 ⟨22, .asr, 3⟩) ∧
    decodeArm 0b1110_0110_1_000_0101_0110_10110_11_0_0011#32 = .ok (.strRegPost .al true 5 6 ⟨22, .ror, 3⟩) ∧
    decodeArm 0b0000_0110_0_010_0101_0110_10110_00_0_0011#32 = .ok (.strtReg .eq false 5 6 ⟨22, .lsl, 3⟩) ∧
    decodeArm 0b0001_0101_1_0_1_1_0101_0110_101100100001#32 = .ok (.ldrImmPre .ne true true 5 6 0xb21) ∧
    decodeArm 0b0010_0100_0_001_0101_0110_101100100001#32 = .ok (.ldrImmPost .cs false 5 6 0xb21) ∧
    decodeArm 0b0011_0100_1_011_0101_0110_101100100001#32 = .ok (.ldrtImm .cc true 5 6 0xb21) ∧
    decodeArm 0b0100_0111_0_0_0_1_0101_0110_10110_00_0_0011#32 = .ok (.ldrRegPre .mi false false 5 6 ⟨22, .lsl, 3⟩) ∧
    decodeArm 0b0101_0110_1_001_0101_0110_10110_01_0_0011#32 = .ok (.ldrRegPost .pl true 5 6 ⟨22, .lsr, 3⟩) ∧
    decodeArm 0b0110_0110_0_011_0101_0110_10110_10_0_0011#32 = .ok (.ldrtReg .vs false 5 6 ⟨22, .asr, 3⟩) := by decide +kernel

theorem test_decode_strb_ldrb :
    decodeArm 0b0111_0101_1_1_1_0_0101_0110_101100100001#32 = .ok (.strbImmPre .vc true true 5 6 0xb21) ∧
    decodeArm 0b1000_0100_0_100_0101_0110_101100100001#32 = .ok (.strbImmPost .hi false 5 6 0xb21) ∧
    decodeArm 0b1001_0100_1_110_0101_0110_101100100001#32 = .ok (.strbtImm .ls true 5 6 0xb21) ∧
    decodeArm 0b1010_0111_0_1_0_0_0101_0110_10110_10_0_0011#32 = .ok (.strbRegPre .ge false false 5 6 ⟨22, .asr, 3⟩) ∧
    decodeArm 0b1011_0110_1_100_0101_0110_10110_11_0_0011#32 = .ok (.strbRegPost .lt true 5 6 ⟨22, .ror, 3⟩) ∧
    decodeArm 0b1100_0110_0_110_0101_0110_10110_00_0_0011#32 = .ok (.strbtReg .gt false 5 6 ⟨22, .lsl, 3⟩) ∧
    decodeArm 0b1101_0101_1_1_1_1_0101_0110_101100100001#32 = .ok (.ldrbImmPre .le true true 5 6 0xb21) ∧
    decodeArm 0b1110_0100_0_101_0101_0110_101100100001#32 = .ok (.ldrbImmPost .al false 5 6 0xb21) ∧
    decodeArm 0b0000_0100_1_111_0101_0110_101100100001#32 = .ok (.ldrbtImm .eq true 5 6 0xb21) ∧
    decodeArm 0b0001_0111_0_1_0_1_0101_0110_10110_00_0_0011#32 = .ok (.ldrbRegPre .ne false false 5 6 ⟨22, .lsl, 3⟩) ∧
    decodeArm 0b0010_0110_1_101_0101_0110_10110_01_0_0011#32 = .ok (.ldrbRegPost .cs true 5 6 ⟨22, .lsr, 3⟩) ∧
    decodeArm 0b0011_0110_0_111_0101_0110_10110_10_0_0011#32 = .ok (.ldrbtReg .cc false 5 6 ⟨22, .asr, 3⟩) := by decide +kernel

theorem test_decode_undefined_block :
    decodeArm 0b0100_011_10110000000000000010_1_1001#32 = .ok (.undef .mi 0xb0002 0x9) ∧
    decodeArm 0b0101_100_1_0_0_0_1_0101_1011000000000110#32 = .ok (.ldm .pl true false false 5 0b1011000000000110) ∧
    decodeArm 0b0110_100_0_1_1_1_1_0101_1_011000000000110#32 = .ok (.ldmRet .vs false true true 5 0b11000000000110) ∧
    decodeArm 0b0111_100_1_0_1_0_1_0101_0_011000000000110#32 = .ok (.ldmUser .vc true false false 5 0b11000000000110) ∧
    decodeArm 0b1000_100_0_1_0_1_0_0101_1011000000000110#32 = .ok (.stm .hi false true true 5 0b1011000000000110) ∧
    decodeArm 0b1001_100_1_0_1_0_0_0101_1011000000000110#32 = .ok (.stmUser .ls true false false 5 0b1011000000000110) := by decide +kernel

theorem test_decode_coprocessor_swi :
    decodeArm 0b1010_110_0_1_0_1_0_0101_0110_0111_10110010#32 = .ok (.stc .ge false true false true 5 6 7 0xb2) ∧
    decodeArm 0b1011_110_1_0_1_0_1_0101_0110_0111_10110010#32 = .ok (.ldc .lt true false true false 5 6 7 0xb2) ∧
    decodeArm 0b1100_1110_1011_0101_0110_0111_110_0_0011#32 = .ok (.cdp .gt 11 5 6 7 6 3) ∧
    decodeArm 0b1101_1110_011_0_0101_0110_0111_110_1_0011#32 = .ok (.mcr .le 3 5 6 7 6 3) ∧
    decodeArm 0b1110_1110_011_1_0101_0110_0111_110_1_0011#32 = .ok (.mrc .al 3 5 6 7 6 3) ∧
    decodeArm 0b0000_1111_101100000000000000000010#32 = .ok (.swi .eq 0xb00002) := by decide +kernel

theorem test_decode_thumb_shift_add :
    decodeThumb 0b00000_10110_101_011#16 = .ok (.tLslImm 0x16 5 3) ∧
    decodeThumb 0b00001_10110_101_011#16 = .ok (.tLsrImm 0x16 5 3) ∧
    decodeThumb 0b00010_10110_101_011#16 = .ok (.tAsrImm 0x16 5 3) ∧
    decodeThumb 0b0001100_110_101_011#16 = .ok (.tAddReg 6 5 3) ∧
    decodeThumb 0b0001101_110_101_011#16 = .ok (.tSubReg 6 5 3) ∧
    decodeThumb 0b0001110_110_101_011#16 = .ok (.tAddImm3 0x6 5 3) ∧
    decodeThumb 0b0001111_110_101_011#16 = .ok (.tSubImm3 0x6 5 3) ∧
    decodeThumb 0b00100_011_10110010#16 = .ok (.tMovImm 3 0xb2) ∧
    decodeThumb 0b00101_011_10110010#16 = .ok (.tCmpImm 3 0xb2) ∧
    decodeThumb 0b00110_011_10110010#16 = .ok (.tAddImm8 3 0xb2) ∧
    decodeThumb 0b00111_011_10110010#16 = .ok (.tSubImm8 3 0xb2) := by decide +kernel

theorem test_decode_thumb_alu :
    decodeThumb 0b0100000000_101_011#16 = .ok (.tAnd 5 3) ∧
    decodeThumb 0b0100000001_101_011#16 = .ok (.tEor 5 3) ∧
    decodeThumb 0b0100000010_101_011#16 = .ok (.tLslReg 5 3) ∧
    decodeThumb 0b0100000011_101_011#16 = .ok (.tLsrReg 5 3) ∧
    decodeThumb 0b0100000100_101_011#16 = .ok (.tAsrReg 5 3) ∧
    decodeThumb 0b0100000101_101_011#16 = .ok (.tAdc 5 3) ∧
    decodeThumb 0b0100000110_101_011#16 = .ok (.tSbc 5 3) ∧
    decodeThumb 0b0100000111_101_011#16 = .ok (.tRorReg 5 3) ∧
    decodeThumb 0b0100001000_101_011#16 = .ok (.tTst 5 3) ∧
    decodeThumb 0b0100001001_101_011#16 = .ok (.tNeg 5 3) ∧
    decodeThumb 0b0100001010_101_011#16 = .ok (.tCmpReg 5 3) ∧
    decodeThumb 0b0100001011_101_011#16 = .ok (.tCmn 5 3) ∧
    decodeThumb 0b0100001100_101_011#16 = .ok (.tOrr 5 3) ∧
    decodeThumb 0b0100001101_101_011#16 = .ok (.tMul 5 3) ∧
    decodeThumb 0b0100001110_101_011#16 = .ok (.tBic 5 3) ∧
    decodeThumb 0b0100001111_101_011#16 = .ok (.tMvn 5 3) := by decide +kernel

theorem test_decode_thumb_high_bx :
    decodeThumb 0b010001001_1_101_011#16 = .ok (.tAddHd 3 13) ∧
    decodeThumb 0b0100010001_101_011#16 = .ok (.tAddHs 3 5) ∧
    decodeThumb 0b010001011_1_101_011#16 = .ok (.tCmpHd 3 13) ∧
    decodeThumb 0b0100010101_101_011#16 = .ok (.tCmpHs 3 5) ∧
    decodeThumb 0b010001101_1_101_011#16 = .ok (.tMovHd 3 13) ∧
    decodeThumb 0b0100011001_101_011#16 = .ok (.tMovHs 3 5) ∧
    decodeThumb 0b010001110_1_101_000#16 = .ok (.tBx 13) := by decide +kernel

theorem test_decode_thumb_load_store_reg :
    decodeThumb 0b01001_011_10110010#16 = .ok (.tLdrPc 3 0xb2) ∧
    decodeThumb 0b0101000_110_101_011#16 = .ok (.tStrReg 6 5 3) ∧
    decodeThumb 0b0101010_110_101_011#16 = .ok (.tStrbReg 6 5 3) ∧
    decodeThumb 0b0101100_110_101_011#16 = .ok (.tLdrReg 6 5 3) ∧
    decodeThumb 0b0101110_110_101_011#16 = .ok (.tLdrbReg 6 5 3) ∧
    decodeThumb 0b0101001_110_101_011#16 = .ok (.tStrhReg 6 5 3) ∧
    decodeThumb 0b0101101_110_101_011#16 = .ok (.tLdrhReg 6 5 3) ∧
    decodeThumb 0b0101011_110_101_011#16 = .ok (.tLdsbReg 6 5 3) ∧
    decodeThumb 0b0101111_110_101_011#16 = .ok (.tLdshReg 6 5 3) := by decide +kernel

theorem test_decode_thumb_load_store_imm :
    decodeThumb 0b01100_10110_101_011#16 = .ok (.tStrImm 0x16 5 3) ∧
    decodeThumb 0b01101_10110_101_011#16 = .ok (.tLdrImm 0x16 5 3) ∧
    decodeThumb 0b01110_10110_101_011#16 = .ok (.tStrbImm 0x16 5 3) ∧
    decodeThumb 0b01111_10110_101_011#16 = .ok (.tLdrbImm 0x16 5 3) ∧
    decodeThumb 0b10000_10110_101_011#16 = .ok (.tStrhImm 0x16 5 3) ∧
    decodeThumb 0b10001_10110_101_011#16 = .ok (.tLdrhImm 0x16 5 3) ∧
    decodeThumb 0b10010_011_10110010#16 = .ok (.tStrSp 3 0xb2) ∧
    decodeThumb 0b10011_011_10110010#16 = .ok (.tLdrSp 3 0xb2) := by decide +kernel

theorem test_decode_thumb_address_stack_block :
    decodeThumb 0b10100_011_10110010#16 = .ok (.tAddPc 3 0xb2) ∧
    decodeThumb 0b10101_011_10110010#16 = .ok (.tAddSp 3 0xb2) ∧
    decodeThumb 0b101100000_1011001#16 = .ok (.tAddSpImm 0x59) ∧
    decodeThumb 0b101100001_1011001#16 = .ok (.tSubSpImm 0x59) ∧
    decodeThumb 0b1011010_1_10110001#16 = .ok (.tPush true 0b10110001) ∧
    decodeThumb 0b1011110_0_10110001#16 = .ok (.tPop false 0b10110001) ∧
    decodeThumb 0b11000_101_10110001#16 = .ok (.tStmia 5 0b10110001) ∧
    decodeThumb 0b11001_101_10110001#16 = .ok (.tLdmia 5 0b10110001) := by decide +kernel

theorem test_decode_thumb_branch :
    decodeThumb 0b11010000_10110010#16 = .ok (.tBeq 0xb2) ∧
    decodeThumb 0b11010001_10110010#16 = .ok (.tBne 0xb2) ∧
    decodeThumb 0b11010010_10110010#16 = .ok (.tBcs 0xb2) ∧
    decodeThumb 0b11010011_10110010#16 = .ok (.tBcc 0xb2) ∧
    decodeThumb 0b11010100_10110010#16 = .ok (.tBmi 0xb2) ∧
    decodeThumb 0b11010101_10110010#16 = .ok (.tBpl 0xb2) ∧
    decodeThumb 0b11010110_10110010#16 = .ok (.tBvs 0xb2) ∧
    decodeThumb 0b11010111_10110010#16 = .ok (.tBvc 0xb2) ∧
    decodeThumb 0b11011000_10110010#16 = .ok (.tBhi 0xb2) ∧
    decodeThumb 0b11011001_10110010#16 = .ok (.tBls 0xb2) ∧
    decodeThumb 0b11011010_10110010#16 = .ok (.tBge 0xb2) ∧
    decodeThumb 0b11011011_10110010#16 = .ok (.tBlt 0xb2) ∧
    decodeThumb 0b11011100_10110010#16 = .ok (.tBgt 0xb2) ∧
    decodeThumb 0b11011101_10110010#16 = .ok (.tBle 0xb2) ∧
    decodeThumb 0b11011111_10110010#16 = .ok (.tSwi 0xb2) ∧
    decodeThumb 0b11100_10110000010#16 = .ok (.tB 0x582) ∧
    decodeThumb 0b11110_10110000010#16 = .ok (.tBlHi 0x582) ∧
    decodeThumb 0b11111_10110000010#16 = .ok (.tBlLo 0x582) := by decide +kernel

/-- Rejections: B13, D58, D59, L36, T45, T52, U36, V8 and V19, each by its name (R144, R146, R147, R153). -/
theorem test_decode_rejects :
    decodeArm 0xFA000000 = .error .reservedCondition ∧ decodeArm 0xE150F001 = .error .shouldBeBits ∧
    decodeArm 0xE1A10001 = .error .shouldBeBits ∧ decodeArm 0xE1C100D0 = .error .unallocatedArm ∧
    decodeThumb 0x4408 = .error .unallocatedThumb ∧ decodeThumb 0x4780 = .error .unallocatedThumb ∧
    decodeThumb 0xB100 = .error .unallocatedThumb ∧ decodeThumb 0xDE00 = .error .unallocatedThumb ∧
    decodeThumb 0xE800 = .error .unallocatedThumb := by decide +kernel

/-- Decoding from bytes in either byte order: MOV R0, R0 (Z1) and the Thumb NOP (Z15); three bytes are no ARM word. -/
theorem test_decode_bytes :
    decodeTableWord 32 0xE1A00000 = some (.movShImm .al false 0 ⟨0, .lsl, 0⟩) ∧
    decodeTableWord 16 0x46C0 = some (.tMovHd 0 8) ∧ decodeTableWord 32 0xFFFFFFFF = none := by decide +kernel

/-! ## One step: vectors of the spec, under their own numbers -/

theorem test_arm_branch_B3_to_B11 :
    -- B3: B -0x2000000 (most negative offset) (R191)
    goes (start .svc 0x8000 0b0000#4 |> arm 0xEA800000)
      (fun t => t.pc == 0xFE008008 && nzcv t == 0b0000#4) = true ∧
    -- B4: B at the top of memory, wraps (R191)
    goes (start .svc 0xfffffffc 0b0000#4 |> arm 0xEA000000)
      (fun t => t.pc == 0x00000004 && nzcv t == 0b0000#4) = true ∧
    -- B5: BL 0x8048 (R192)
    goes (start .svc 0x8000 0b0000#4 |> arm 0xEB000010)
      (fun t => readReg t 14 == 0x00008004 && t.pc == 0x00008048 && nzcv t == 0b0000#4) = true ∧
    -- B7: BLGT 0x8010, N = V = 1, Z = 0 (passes) (R192, R143)
    goes (start .svc 0x8000 0b1001#4 |> arm 0xCB000002)
      (fun t => readReg t 14 == 0x00008004 && t.pc == 0x00008010 && nzcv t == 0b1001#4) = true ∧
    -- B9: BX R0 (to Thumb) (R194)
    goes (start .svc 0x8000 0b0000#4 |> arm 0xE12FFF10 |> reg 0 0x9001)
      (fun t => t.pc == 0x00009000 && nzcv t == 0b0000#4 && t.cpsr.toWord.setWidth 8 == 0x33#8) = true ∧
    -- B11: BX R0, R0[1:0] = 10 (R194)
    stops (start .svc 0x8000 0b0000#4 |> arm 0xE12FFF10 |> reg 0 0x9002) = true := by decide +kernel

theorem test_arm_data_processing_D1_to_D7 :
    -- D1: AND R6, R3, R1 (R208)
    goes (start .svc 0x8000 0b0000#4 |> arm 0xE0036001 |> reg 1 0xFF00FF0 |> reg 3 0xF0F0F0F0)
      (fun t => readReg t 6 == 0x00F000F0 && t.pc == 0x00008004 && nzcv t == 0b0000#4) = true ∧
    -- D2: EORS R3, R1, R2 (R209)
    goes (start .svc 0x8000 0b0011#4 |> arm 0xE0313002 |> reg 1 0xFFFF0000 |> reg 2 0xFFFF0000)
      (fun t => readReg t 3 == 0x00000000 && t.pc == 0x00008004 && nzcv t == 0b0111#4) = true ∧
    -- D4: SUBS R0, R1, R2 (borrow) (R210)
    goes (start .svc 0x8000 0b0000#4 |> arm 0xE0510002 |> reg 1 0x0 |> reg 2 0x1)
      (fun t => readReg t 0 == 0xFFFFFFFF && t.pc == 0x00008004 && nzcv t == 0b1000#4) = true ∧
    -- D5: SUBS R0, R1, R2 (signed overflow) (R210)
    goes (start .svc 0x8000 0b0000#4 |> arm 0xE0510002 |> reg 1 0x80000000 |> reg 2 0x1)
      (fun t => readReg t 0 == 0x7FFFFFFF && t.pc == 0x00008004 && nzcv t == 0b0011#4) = true ∧
    -- D6: RSBS R0, R0, #0 (negate 0x80000000) (R211)
    goes (start .svc 0x8000 0b0000#4 |> arm 0xE2700000 |> reg 0 0x80000000)
      (fun t => readReg t 0 == 0x80000000 && t.pc == 0x00008004 && nzcv t == 0b1001#4) = true ∧
    -- D7: RSBS R0, R0, #0 (negate 0) (R211)
    goes (start .svc 0x8000 0b0000#4 |> arm 0xE2700000 |> reg 0 0x0)
      (fun t => readReg t 0 == 0x00000000 && t.pc == 0x00008004 && nzcv t == 0b0110#4) = true := by decide +kernel

theorem test_arm_data_processing_D10_to_D14 :
    -- D10: ADDS R0, R1, R2 (both) (R212)
    goes (start .svc 0x8000 0b0000#4 |> arm 0xE0910002 |> reg 1 0x80000000 |> reg 2 0x80000000)
      (fun t => readReg t 0 == 0x00000000 && t.pc == 0x00008004 && nzcv t == 0b0111#4) = true ∧
    -- D54: ADD PC, PC, R0, LSL #2 (jump table) (R212, R207, R206)
    goes (start .svc 0x8000 0b0000#4 |> arm 0xE08FF100 |> reg 0 0x3)
      (fun t => readReg t 0 == 0x00000003 && t.pc == 0x00008014 && nzcv t == 0b0000#4) = true ∧
    -- D11: ADCS R2, R0, R1, C = 1 (R213)
    goes (start .svc 0x8000 0b0010#4 |> arm 0xE0B02001 |> reg 0 0xFFFFFFFF |> reg 1 0x0)
      (fun t => readReg t 2 == 0x00000000 && t.pc == 0x00008004 && nzcv t == 0b0110#4) = true ∧
    -- D12: ADC R2, R0, R1, C = 1, no S (R213)
    goes (start .svc 0x8000 0b0010#4 |> arm 0xE0A02001 |> reg 0 0x1 |> reg 1 0x2)
      (fun t => readReg t 2 == 0x00000004 && t.pc == 0x00008004 && nzcv t == 0b0010#4) = true ∧
    -- D13: SBCS R2, R0, R1, C = 0 (R214)
    goes (start .svc 0x8000 0b0000#4 |> arm 0xE0D02001 |> reg 0 0x0 |> reg 1 0x0)
      (fun t => readReg t 2 == 0xFFFFFFFF && t.pc == 0x00008004 && nzcv t == 0b1000#4) = true ∧
    -- D14: SBCS R2, R0, R1, C = 1 (R214)
    goes (start .svc 0x8000 0b0010#4 |> arm 0xE0D02001 |> reg 0 0x5 |> reg 1 0x3)
      (fun t => readReg t 2 == 0x00000002 && t.pc == 0x00008004 && nzcv t == 0b0010#4) = true := by decide +kernel

theorem test_arm_data_processing_D15_to_D20 :
    -- D15: RSCS R2, R0, #0, C = 0 (high word of a 64-bit negate) (R215)
    goes (start .svc 0x8000 0b0000#4 |> arm 0xE2F02000 |> reg 0 0x0)
      (fun t => readReg t 2 == 0xFFFFFFFF && t.pc == 0x00008004 && nzcv t == 0b1000#4) = true ∧
    -- D16: TST R0, #1 (R216)
    goes (start .svc 0x8000 0b0011#4 |> arm 0xE3100001 |> reg 0 0x2)
      (fun t => t.pc == 0x00008004 && nzcv t == 0b0111#4) = true ∧
    -- D17: TEQ R0, R1 (equal) (R217)
    goes (start .svc 0x8000 0b0000#4 |> arm 0xE1300001 |> reg 0 0x1234 |> reg 1 0x1234)
      (fun t => t.pc == 0x00008004 && nzcv t == 0b0100#4) = true ∧
    -- D18: CMP R0, #0x100 (R218)
    goes (start .svc 0x8000 0b0000#4 |> arm 0xE3500C01 |> reg 0 0xFF)
      (fun t => t.pc == 0x00008004 && nzcv t == 0b1000#4) = true ∧
    -- D19: CMP R0, R1 (unsigned higher, signed less) (R218)
    goes (start .svc 0x8000 0b0000#4 |> arm 0xE1500001 |> reg 0 0x80000000 |> reg 1 0x1)
      (fun t => t.pc == 0x00008004 && nzcv t == 0b0011#4) = true ∧
    -- D20: CMN R0, #1 (R219)
    goes (start .svc 0x8000 0b0000#4 |> arm 0xE3700001 |> reg 0 0xFFFFFFFF)
      (fun t => t.pc == 0x00008004 && nzcv t == 0b0110#4) = true := by decide +kernel

theorem test_arm_data_processing_D21_to_D34 :
    -- D21: ORR R8, R3, R4 (R220)
    goes (start .svc 0x8000 0b0000#4 |> arm 0xE1838004 |> reg 3 0xF0 |> reg 4 0xF)
      (fun t => readReg t 8 == 0x000000FF && t.pc == 0x00008004 && nzcv t == 0b0000#4) = true ∧
    -- D23: MOVS R0, #0x80000000 (imm8 = 2, rotate = 1) (R221, R202)
    goes (start .svc 0x8000 0b0000#4 |> arm 0xE3B00102)
      (fun t => readReg t 0 == 0x80000000 && t.pc == 0x00008004 && nzcv t == 0b1010#4) = true ∧
    -- D60: MOVEQ R0, #1, Z = 0 (fails) (R221, R143)
    goes (start .svc 0x8000 0b0000#4 |> arm 0x03A00001 |> reg 0 0x9)
      (fun t => readReg t 0 == 0x00000009 && t.pc == 0x00008004 && nzcv t == 0b0000#4) = true ∧
    -- D25: BICS R0, R1, #0xFF000000 (R222)
    goes (start .svc 0x8000 0b0000#4 |> arm 0xE3D104FF |> reg 1 0xFF0000FF)
      (fun t => readReg t 0 == 0x000000FF && t.pc == 0x00008004 && nzcv t == 0b0010#4) = true ∧
    -- D26: MVNS R0, R1 (R223)
    goes (start .svc 0x8000 0b0010#4 |> arm 0xE1F00001 |> reg 1 0xFFFFFFFF)
      (fun t => readReg t 0 == 0x00000000 && t.pc == 0x00008004 && nzcv t == 0b0110#4) = true ∧
    -- D34: MOVS R0, R1, RRX, C = 1 (R221, R203)
    goes (start .svc 0x8000 0b0010#4 |> arm 0xE1B00061 |> reg 1 0x2)
      (fun t => readReg t 0 == 0x80000001 && t.pc == 0x00008004 && nzcv t == 0b1000#4) = true := by decide +kernel

theorem test_arm_data_processing_D55_to_D56 :
    -- D55: MOVS PC, LR in Supervisor mode (R221, R207)
    goes (start .svc 0x8000 0b0000#4 |> arm 0xE1B0F00E |> reg 14 0x9000 |> spsr 0x60000010)
      (fun t => t.pc == 0x00009000 && nzcv t == 0b0110#4 && t.cpsr.toWord.setWidth 8 == 0x10#8) = true ∧
    -- D40: MOVS R0, R1, LSL R2 (R2 = 0x100: low byte 0) (R221, R204)
    goes (start .svc 0x8000 0b0000#4 |> arm 0xE1B00211 |> reg 1 0xFFFFFFFF |> reg 2 0x100)
      (fun t => readReg t 0 == 0xFFFFFFFF && t.pc == 0x00008004 && nzcv t == 0b1000#4) = true ∧
    -- D46: MOVS R0, R1, ROR R2 (R2 = 36) (R221, R204)
    goes (start .svc 0x8000 0b0000#4 |> arm 0xE1B00271 |> reg 1 0xF |> reg 2 0x24)
      (fun t => readReg t 0 == 0xF0000000 && t.pc == 0x00008004 && nzcv t == 0b1010#4) = true ∧
    -- D50: ADD R0, PC, #4 (R212, R206)
    goes (start .svc 0x8000 0b0000#4 |> arm 0xE28F0004)
      (fun t => readReg t 0 == 0x0000800C && t.pc == 0x00008004 && nzcv t == 0b0000#4) = true ∧
    -- D56: SUBS PC, LR, #4 in IRQ mode, to Thumb (R210, R207)
    goes (start .irq 0x8000 0b0000#4 |> arm 0xE25EF004 |> reg 14 0x9006 |> spsr 0x80000030)
      (fun t => t.pc == 0x00009002 && nzcv t == 0b1000#4 && t.cpsr.toWord.setWidth 8 == 0x30#8) = true := by decide +kernel

theorem test_arm_psr_P1_to_P13 :
    -- P1: MRS R0, CPSR (state just after reset) (R241, R60)
    goes (start .svc 0x8000 0b0000#4 |> masks true true |> arm 0xE10F0000 |> reg 0 0x5)
      (fun t => readReg t 0 == 0x000000D3 && t.pc == 0x00008004 && nzcv t == 0b0000#4) = true ∧
    -- P4: MRS R0, SPSR in User mode (R241)
    stops (start .usr 0x8000 0b0000#4 |> arm 0xE14F0000) = true ∧
    -- P6: MSR CPSR_f, #0xF0000000 (R243, R244)
    goes (start .svc 0x8000 0b0000#4 |> arm 0xE328F20F)
      (fun t => t.pc == 0x00008004 && nzcv t == 0b1111#4) = true ∧
    -- P10: MSR CPSR_fc, R0 in User mode (control byte protected) (R242, R244)
    goes (start .usr 0x8000 0b0000#4 |> arm 0xE129F000 |> reg 0 0xF00000D3)
      (fun t => t.pc == 0x00008004 && nzcv t == 0b1111#4) = true ∧
    -- P13: MSR SPSR_fc, R0 (R242, R244)
    goes (start .svc 0x8000 0b0000#4 |> arm 0xE169F000 |> reg 0 0x80000030 |> spsr 0x0FFFFF00)
      (fun t => t.pc == 0x00008004 && nzcv t == 0b0000#4 && t.spsrs.get .svc == some 0x80FFFF30) = true := by decide +kernel

theorem test_arm_multiply_M3_to_M10 :
    -- M3: MULS R0, R1, R2 (-1 times 2) (R251)
    goes (start .svc 0x8000 0b0000#4 |> arm 0xE0100291 |> reg 1 0xFFFFFFFF |> reg 2 0x2)
      (fun t => readReg t 0 == 0xFFFFFFFE && t.pc == 0x00008004 && t.cpsr.n == true && t.cpsr.z == false && t.cpsr.v == false) = true ∧
    -- M7: MUL R0, R1, R0 (Rd = Rs allowed) (R251, R258)
    goes (start .svc 0x8000 0b0000#4 |> arm 0xE0000091 |> reg 0 0x3 |> reg 1 0x5)
      (fun t => readReg t 0 == 0x0000000F && t.pc == 0x00008004 && nzcv t == 0b0000#4) = true ∧
    -- M4: MLA R0, R1, R2, R3 (R252)
    goes (start .svc 0x8000 0b0000#4 |> arm 0xE0203291 |> reg 1 0x7 |> reg 2 0x6 |> reg 3 0x64)
      (fun t => readReg t 0 == 0x0000008E && t.pc == 0x00008004 && nzcv t == 0b0000#4) = true ∧
    -- M5: MLA R0, R1, R2, R0 (Rd = Rn allowed) (R252, R258)
    goes (start .svc 0x8000 0b0000#4 |> arm 0xE0200291 |> reg 0 0x1 |> reg 1 0xFFFFFFFF |> reg 2 0xFFFFFFFF)
      (fun t => readReg t 0 == 0x00000002 && t.pc == 0x00008004 && nzcv t == 0b0000#4) = true ∧
    -- M9: UMULL R0, R1, R2, R3 (max times max) (R253)
    goes (start .svc 0x8000 0b0000#4 |> arm 0xE0810392 |> reg 2 0xFFFFFFFF |> reg 3 0xFFFFFFFF)
      (fun t => readReg t 0 == 0x00000001 && readReg t 1 == 0xFFFFFFFE && t.pc == 0x00008004 && nzcv t == 0b0000#4) = true ∧
    -- M10: UMULLS R0, R1, R2, R3 (zero) (R253)
    goes (start .svc 0x8000 0b0000#4 |> arm 0xE0910392 |> reg 0 0x9 |> reg 1 0x9 |> reg 2 0x0 |> reg 3 0xFFFFFFFF)
      (fun t => readReg t 0 == 0x00000000 && readReg t 1 == 0x00000000 && t.pc == 0x00008004 && t.cpsr.n == false && t.cpsr.z == true) = true := by decide +kernel

theorem test_arm_multiply_M11_to_M18 :
    -- M11: UMLAL R0, R1, R2, R3 (carry into the high word) (R254)
    goes (start .svc 0x8000 0b0000#4 |> arm 0xE0A10392 |> reg 0 0xFFFFFFFF |> reg 1 0x0 |> reg 2 0x1 |> reg 3 0x1)
      (fun t => readReg t 0 == 0x00000000 && readReg t 1 == 0x00000001 && t.pc == 0x00008004 && nzcv t == 0b0000#4) = true ∧
    -- M12: UMLAL R0, R1, R2, R3 (carry out of bit 63 lost) (R254)
    goes (start .svc 0x8000 0b0000#4 |> arm 0xE0A10392 |> reg 0 0xFFFFFFFF |> reg 1 0xFFFFFFFF |> reg 2 0x1 |> reg 3 0x1)
      (fun t => readReg t 0 == 0x00000000 && readReg t 1 == 0x00000000 && t.pc == 0x00008004 && nzcv t == 0b0000#4) = true ∧
    -- M14: SMULLS R0, R1, R2, R3 (-1 times 1) (R255)
    goes (start .svc 0x8000 0b0000#4 |> arm 0xE0D10392 |> reg 2 0xFFFFFFFF |> reg 3 0x1)
      (fun t => readReg t 0 == 0xFFFFFFFF && readReg t 1 == 0xFFFFFFFF && t.pc == 0x00008004 && t.cpsr.n == true && t.cpsr.z == false) = true ∧
    -- M16: SMULL R0, R1, R2, R3 (min times -1) (R255, R260)
    goes (start .svc 0x8000 0b0000#4 |> arm 0xE0C10392 |> reg 2 0x80000000 |> reg 3 0xFFFFFFFF)
      (fun t => readReg t 0 == 0x80000000 && readReg t 1 == 0x00000000 && t.pc == 0x00008004 && nzcv t == 0b0000#4) = true ∧
    -- M17: SMLAL R0, R1, R2, R3 (-1 plus 1 times 1) (R256)
    goes (start .svc 0x8000 0b0000#4 |> arm 0xE0E10392 |> reg 0 0xFFFFFFFF |> reg 1 0xFFFFFFFF |> reg 2 0x1 |> reg 3 0x1)
      (fun t => readReg t 0 == 0x00000000 && readReg t 1 == 0x00000000 && t.pc == 0x00008004 && nzcv t == 0b0000#4) = true ∧
    -- M18: SMLALS R0, R1, R2, R3 (2 times -3 plus 10) (R256)
    goes (start .svc 0x8000 0b0000#4 |> arm 0xE0F10392 |> reg 0 0xA |> reg 1 0x0 |> reg 2 0x2 |> reg 3 0xFFFFFFFD)
      (fun t => readReg t 0 == 0x00000004 && readReg t 1 == 0x00000000 && t.pc == 0x00008004 && t.cpsr.n == false && t.cpsr.z == false) = true := by decide +kernel

theorem test_arm_load_store_L4_to_L7 :
    -- L4: LDR R0, [R1, #4]! (R267, R266)
    goes (start .svc 0x8000 0b0000#4 |> arm 0xE5B10004 |> reg 1 0x1000 |> word 0x1000 0x11223344 |> word 0x1004 0x80f0a55a)
      (fun t => readReg t 0 == 0x80F0A55A && readReg t 1 == 0x00001004 && t.pc == 0x00008004 && nzcv t == 0b0000#4) = true ∧
    -- L13: LDR PC, [R1] (low bits dropped, T unchanged) (R267, R270)
    goes (start .svc 0x8000 0b0000#4 |> arm 0xE591F000 |> reg 1 0x1000 |> word 0x1000 0x9003)
      (fun t => readReg t 1 == 0x00001000 && t.pc == 0x00009000 && nzcv t == 0b0000#4) = true ∧
    -- L5: LDR R0, [R1], #4 (R267, R266)
    goes (start .svc 0x8000 0b0000#4 |> arm 0xE4910004 |> reg 1 0x1000 |> word 0x1000 0x11223344 |> word 0x1004 0x80f0a55a)
      (fun t => readReg t 0 == 0x11223344 && readReg t 1 == 0x00001004 && t.pc == 0x00008004 && nzcv t == 0b0000#4) = true ∧
    -- L39: LDRNE R0, [R1], #4 with Z = 1 (fails: no access, no write-back) (R267, R143)
    goes (start .svc 0x8000 0b0100#4 |> arm 0x14910004 |> reg 1 0x1000 |> word 0x1000 0x11223344 |> word 0x1004 0x80f0a55a)
      (fun t => readReg t 0 == 0x00000000 && t.pc == 0x00008004 && nzcv t == 0b0100#4) = true ∧
    -- L6: LDR R0, [R1, R2, LSL #2] (R267, R266)
    goes (start .svc 0x8000 0b0000#4 |> arm 0xE7910102 |> reg 1 0x1000 |> reg 2 0x1 |> word 0x1000 0x11223344 |> word 0x1004 0x80f0a55a)
      (fun t => readReg t 0 == 0x80F0A55A && t.pc == 0x00008004 && nzcv t == 0b0000#4) = true ∧
    -- L7: LDR R0, [R1, -R2] (R267, R266)
    goes (start .svc 0x8000 0b0000#4 |> arm 0xE7110002 |> reg 1 0x1008 |> reg 2 0x4 |> word 0x1000 0x11223344 |> word 0x1004 0x80f0a55a)
      (fun t => readReg t 0 == 0x80F0A55A && t.pc == 0x00008004 && nzcv t == 0b0000#4) = true := by decide +kernel

theorem test_arm_load_store_L8_to_L21 :
    -- L8: LDR R0, [R1], -R2, ASR #1 (R267, R266)
    goes (start .svc 0x8000 0b0000#4 |> arm 0xE61100C2 |> reg 1 0x1004 |> reg 2 0x8 |> word 0x1000 0x11223344 |> word 0x1004 0x80f0a55a)
      (fun t => readReg t 0 == 0x80F0A55A && readReg t 1 == 0x00001000 && t.pc == 0x00008004 && nzcv t == 0b0000#4) = true ∧
    -- L16: LDRB R0, [R1, #1], BIGEND = 1 (R269, R80)
    goes (start .svc 0x8000 0b0000#4 |> big |> arm 0xE5D10001 |> reg 1 0x1000 |> word 0x1000 0x11223344 |> word 0x1004 0x80f0a55a)
      (fun t => readReg t 0 == 0x00000022 && t.pc == 0x00008004 && nzcv t == 0b0000#4) = true ∧
    -- L17: LDRB R0, [R1, #7] (bit 7 set: zero-extended) (R269)
    goes (start .svc 0x8000 0b0000#4 |> arm 0xE5D10007 |> reg 1 0x1000 |> word 0x1000 0x11223344 |> word 0x1004 0x80f0a55a)
      (fun t => readReg t 0 == 0x00000080 && t.pc == 0x00008004 && nzcv t == 0b0000#4) = true ∧
    -- L18: LDRSB R0, [R1, #7] (R283)
    goes (start .svc 0x8000 0b0000#4 |> arm 0xE1D100D7 |> reg 1 0x1000 |> word 0x1000 0x11223344 |> word 0x1004 0x80f0a55a)
      (fun t => readReg t 0 == 0xFFFFFF80 && t.pc == 0x00008004 && nzcv t == 0b0000#4) = true ∧
    -- L19: LDRSB R0, [R1, #4] (R283)
    goes (start .svc 0x8000 0b0000#4 |> arm 0xE1D100D4 |> reg 1 0x1000 |> word 0x1000 0x11223344 |> word 0x1004 0x80f0a55a)
      (fun t => readReg t 0 == 0x0000005A && t.pc == 0x00008004 && nzcv t == 0b0000#4) = true ∧
    -- L21: LDRH R0, [R1, #6], BIGEND = 1 (R281, R80)
    goes (start .svc 0x8000 0b0000#4 |> big |> arm 0xE1D100B6 |> reg 1 0x1000 |> word 0x1000 0x11223344 |> word 0x1004 0x80f0a55a)
      (fun t => readReg t 0 == 0x0000A55A && t.pc == 0x00008004 && nzcv t == 0b0000#4) = true := by decide +kernel

theorem test_arm_load_store_L25_to_L30 :
    -- L25: LDRH R0, [R1], #-2 (R281, R280)
    goes (start .svc 0x8000 0b0000#4 |> arm 0xE05100B2 |> reg 1 0x1002 |> word 0x1000 0x11223344 |> word 0x1004 0x80f0a55a)
      (fun t => readReg t 0 == 0x00001122 && readReg t 1 == 0x00001000 && t.pc == 0x00008004 && nzcv t == 0b0000#4) = true ∧
    -- L22: LDRSH R0, [R1, #6] (R284)
    goes (start .svc 0x8000 0b0000#4 |> arm 0xE1D100F6 |> reg 1 0x1000 |> word 0x1000 0x11223344 |> word 0x1004 0x80f0a55a)
      (fun t => readReg t 0 == 0xFFFF80F0 && t.pc == 0x00008004 && nzcv t == 0b0000#4) = true ∧
    -- L23: LDRSH R0, [R1, #4] (R284)
    goes (start .svc 0x8000 0b0000#4 |> arm 0xE1D100F4 |> reg 1 0x1000 |> word 0x1000 0x11223344 |> word 0x1004 0x80f0a55a)
      (fun t => readReg t 0 == 0xFFFFA55A && t.pc == 0x00008004 && nzcv t == 0b0000#4) = true ∧
    -- L24: LDRH R0, [R1, R2]! (R281, R280)
    goes (start .svc 0x8000 0b0000#4 |> arm 0xE1B100B2 |> reg 1 0x1000 |> reg 2 0x2 |> word 0x1000 0x11223344 |> word 0x1004 0x80f0a55a)
      (fun t => readReg t 0 == 0x00001122 && readReg t 1 == 0x00001002 && t.pc == 0x00008004 && nzcv t == 0b0000#4) = true ∧
    -- L28: STR R0, [R1, #8], BIGEND = 1 (R268, R80)
    goes (start .svc 0x8000 0b0000#4 |> big |> arm 0xE5810008 |> reg 0 0xDEADBEEF |> reg 1 0x1000)
      (fun t => t.pc == 0x00008004 && nzcv t == 0b0000#4 && t.mem.read 0x1008 == 0xDE#8 && t.mem.read 0x1009 == 0xAD#8 && t.mem.read 0x100a == 0xBE#8 && t.mem.read 0x100b == 0xEF#8) = true ∧
    -- L30: STR PC, [R1] (stores pc + 12) (R268, R271)
    goes (start .svc 0x8000 0b0000#4 |> arm 0xE581F000 |> reg 1 0x1000)
      (fun t => t.pc == 0x00008004 && nzcv t == 0b0000#4 && t.mem.read 0x1000 == 0x0C#8 && t.mem.read 0x1001 == 0x80#8 && t.mem.read 0x1002 == 0x00#8 && t.mem.read 0x1003 == 0x00#8) = true := by decide +kernel

theorem test_arm_load_store_L31_to_L37 :
    -- L31: STRB R0, [R1, #3] (R272)
    goes (start .svc 0x8000 0b0000#4 |> arm 0xE5C10003 |> reg 0 0xDEADBEEF |> reg 1 0x1000 |> word 0x1000 0x11223344 |> word 0x1004 0x80f0a55a)
      (fun t => t.pc == 0x00008004 && nzcv t == 0b0000#4 && t.mem.read 0x1000 == 0x44#8 && t.mem.read 0x1001 == 0x33#8 && t.mem.read 0x1002 == 0x22#8 && t.mem.read 0x1003 == 0xEF#8) = true ∧
    -- L32: STRB R0, [R1, #3], BIGEND = 1 (R272, R80)
    goes (start .svc 0x8000 0b0000#4 |> big |> arm 0xE5C10003 |> reg 0 0xDEADBEEF |> reg 1 0x1000 |> word 0x1000 0x11223344 |> word 0x1004 0x80f0a55a)
      (fun t => t.pc == 0x00008004 && nzcv t == 0b0000#4 && t.mem.read 0x1000 == 0x11#8 && t.mem.read 0x1001 == 0x22#8 && t.mem.read 0x1002 == 0x33#8 && t.mem.read 0x1003 == 0xEF#8) = true ∧
    -- L33: STRH R0, [R1, #2] (R282)
    goes (start .svc 0x8000 0b0000#4 |> arm 0xE1C100B2 |> reg 0 0xDEADBEEF |> reg 1 0x1000 |> word 0x1000 0x11223344 |> word 0x1004 0x80f0a55a)
      (fun t => t.pc == 0x00008004 && nzcv t == 0b0000#4 && t.mem.read 0x1000 == 0x44#8 && t.mem.read 0x1001 == 0x33#8 && t.mem.read 0x1002 == 0xEF#8 && t.mem.read 0x1003 == 0xBE#8) = true ∧
    -- L34: STRH R0, [R1, #2], BIGEND = 1 (R282, R80)
    goes (start .svc 0x8000 0b0000#4 |> big |> arm 0xE1C100B2 |> reg 0 0xDEADBEEF |> reg 1 0x1000 |> word 0x1000 0x11223344 |> word 0x1004 0x80f0a55a)
      (fun t => t.pc == 0x00008004 && nzcv t == 0b0000#4 && t.mem.read 0x1000 == 0x11#8 && t.mem.read 0x1001 == 0x22#8 && t.mem.read 0x1002 == 0xBE#8 && t.mem.read 0x1003 == 0xEF#8) = true ∧
    -- L35: STRH R0, [R1], R2 (R282, R280)
    goes (start .svc 0x8000 0b0000#4 |> arm 0xE08100B2 |> reg 0 0xBEEF |> reg 1 0x1000 |> reg 2 0x10)
      (fun t => readReg t 1 == 0x00001010 && t.pc == 0x00008004 && nzcv t == 0b0000#4 && t.mem.read 0x1000 == 0xEF#8 && t.mem.read 0x1001 == 0xBE#8 && t.mem.read 0x1002 == 0x00#8 && t.mem.read 0x1003 == 0x00#8) = true ∧
    -- L37: LDRT R0, [R1], #4 (as LDR post-indexed; privilege User) (R275)
    goes (start .svc 0x8000 0b0000#4 |> arm 0xE4B10004 |> reg 1 0x1000 |> word 0x1000 0x11223344 |> word 0x1004 0x80f0a55a)
      (fun t => readReg t 0 == 0x11223344 && readReg t 1 == 0x00001004 && t.pc == 0x00008004 && nzcv t == 0b0000#4) = true := by decide +kernel

theorem test_arm_load_store_L38_to_L41 :
    -- L38: STRBT R0, [R1], #1 (R279)
    goes (start .svc 0x8000 0b0000#4 |> arm 0xE4E10001 |> reg 0 0xAB |> reg 1 0x1000)
      (fun t => readReg t 1 == 0x00001001 && t.pc == 0x00008004 && nzcv t == 0b0000#4 && t.mem.read 0x1000 == 0xAB#8 && t.mem.read 0x1001 == 0x00#8 && t.mem.read 0x1002 == 0x00#8 && t.mem.read 0x1003 == 0x00#8) = true ∧
    -- L40: STRT R0, [R1], #4 (as STR post-indexed; the access carries the user attribute) (R276, R277)
    goes (start .svc 0x8000 0b0000#4 |> arm 0xE4A10004 |> reg 0 0xCAFEF00D |> reg 1 0x1000)
      (fun t => readReg t 1 == 0x00001004 && t.pc == 0x00008004 && nzcv t == 0b0000#4 && t.mem.read 0x1000 == 0x0D#8 && t.mem.read 0x1001 == 0xF0#8 && t.mem.read 0x1002 == 0xFE#8 && t.mem.read 0x1003 == 0xCA#8) = true ∧
    -- L41: LDRBT R0, [R1], R2 (register offset form) (R278, R277)
    goes (start .svc 0x8000 0b0000#4 |> arm 0xE6F10002 |> reg 1 0x1001 |> reg 2 0x10 |> word 0x1000 0x11223344 |> word 0x1004 0x80f0a55a)
      (fun t => readReg t 0 == 0x00000033 && readReg t 1 == 0x00001011 && t.pc == 0x00008004 && nzcv t == 0b0000#4) = true := by decide +kernel

theorem test_arm_block_swap_K4_to_K12 :
    -- K4: LDMDB R5!, (R0, R2) (R302, R301)
    goes (start .svc 0x8000 0b0000#4 |> arm 0xE9350005 |> reg 5 0x1008 |> word 0x1000 0xa0 |> word 0x1004 0xa1 |> word 0x1008 0xa2 |> word 0x100c 0xa3 |> word 0x1010 0xa4 |> word 0x1014 0xa5 |> word 0x1018 0xa6 |> word 0x101c 0xa7)
      (fun t => readReg t 0 == 0x000000A0 && readReg t 2 == 0x000000A1 && readReg t 5 == 0x00001000 && t.pc == 0x00008004 && nzcv t == 0b0000#4) = true ∧
    -- K8: LDMIA R13!, (R4, PC) (return) (R302)
    goes (start .svc 0x8000 0b0000#4 |> arm 0xE8BD8010 |> reg 13 0x1000 |> word 0x1000 0x44 |> word 0x1004 0x9003)
      (fun t => readReg t 4 == 0x00000044 && readReg t 13 == 0x00001008 && t.pc == 0x00009000 && nzcv t == 0b0000#4) = true ∧
    -- K9: LDMIA R13!, (R0, PC)^ in IRQ mode (exception return) (R303)
    goes (start .irq 0x8000 0b0000#4 |> arm 0xE8FD8001 |> reg 13 0x1000 |> word 0x1000 0x77 |> word 0x1004 0x9000 |> spsr 0x40000010)
      (fun t => readReg t 0 == 0x00000077 && t.pc == 0x00009000 && nzcv t == 0b0100#4 && t.cpsr.toWord.setWidth 8 == 0x10#8) = true ∧
    -- K10: LDMIA R13, (R13, R14)^ in Supervisor mode (loads the User bank) (R304)
    goes (start .svc 0x8000 0b0000#4 |> arm 0xE8DD6000 |> reg 13 0x1000 |> reg 14 0xEEEE |> usr 13 0x5555 |> usr 14 0x6666 |> word 0x1000 0xa0 |> word 0x1004 0xa1 |> word 0x1008 0xa2 |> word 0x100c 0xa3 |> word 0x1010 0xa4 |> word 0x1014 0xa5 |> word 0x1018 0xa6 |> word 0x101c 0xa7)
      (fun t => readReg t 13 == 0x00001000 && t.pc == 0x00008004 && nzcv t == 0b0000#4 && readBank t .usr 13 == 0x000000A0 && readBank t .usr 14 == 0x000000A1) = true ∧
    -- K11: LDMIA R13!, (R13, R14)^ (user bank with write-back) (R304)
    stops (start .svc 0x8000 0b0000#4 |> arm 0xE8FD6000 |> reg 13 0x1000) = true ∧
    -- K12: STMDB R13!, (R0-R3, R14) (R305, R301)
    goes (start .svc 0x8000 0b0000#4 |> arm 0xE92D400F |> reg 0 0x1 |> reg 1 0x2 |> reg 2 0x3 |> reg 3 0x4 |> reg 13 0x1014 |> reg 14 0xAA)
      (fun t => readReg t 13 == 0x00001000 && t.pc == 0x00008004 && nzcv t == 0b0000#4 && t.mem.read 0x1000 == 0x01#8 && t.mem.read 0x1001 == 0x00#8 && t.mem.read 0x1002 == 0x00#8 && t.mem.read 0x1003 == 0x00#8 && t.mem.read 0x1004 == 0x02#8 && t.mem.read 0x1005 == 0x00#8 && t.mem.read 0x1006 == 0x00#8 && t.mem.read 0x1007 == 0x00#8 && t.mem.read 0x1008 == 0x03#8 && t.mem.read 0x1009 == 0x00#8 && t.mem.read 0x100a == 0x00#8 && t.mem.read 0x100b == 0x00#8 && t.mem.read 0x100c == 0x04#8 && t.mem.read 0x100d == 0x00#8 && t.mem.read 0x100e == 0x00#8 && t.mem.read 0x100f == 0x00#8 && t.mem.read 0x1010 == 0xAA#8 && t.mem.read 0x1011 == 0x00#8 && t.mem.read 0x1012 == 0x00#8 && t.mem.read 0x1013 == 0x00#8) = true := by decide +kernel

theorem test_arm_block_swap_K16_to_K25 :
    -- K16: STMIA R0!, (R0, R1) (base lowest in list: original value stored) (R305, R308)
    goes (start .svc 0x8000 0b0000#4 |> arm 0xE8A00003 |> reg 0 0x1000 |> reg 1 0x22)
      (fun t => readReg t 0 == 0x00001008 && t.pc == 0x00008004 && nzcv t == 0b0000#4 && t.mem.read 0x1000 == 0x00#8 && t.mem.read 0x1001 == 0x10#8 && t.mem.read 0x1002 == 0x00#8 && t.mem.read 0x1003 == 0x00#8 && t.mem.read 0x1004 == 0x22#8 && t.mem.read 0x1005 == 0x00#8 && t.mem.read 0x1006 == 0x00#8 && t.mem.read 0x1007 == 0x00#8) = true ∧
    -- K19: STMIA R0, (R13, R14)^ in IRQ mode (stores the User bank) (R306)
    goes (start .irq 0x8000 0b0000#4 |> arm 0xE8C06000 |> reg 0 0x1000 |> reg 13 0x3333 |> reg 14 0x4444 |> usr 13 0x5555 |> usr 14 0x6666)
      (fun t => t.pc == 0x00008004 && nzcv t == 0b0000#4 && t.mem.read 0x1000 == 0x55#8 && t.mem.read 0x1001 == 0x55#8 && t.mem.read 0x1002 == 0x00#8 && t.mem.read 0x1003 == 0x00#8 && t.mem.read 0x1004 == 0x66#8 && t.mem.read 0x1005 == 0x66#8 && t.mem.read 0x1006 == 0x00#8 && t.mem.read 0x1007 == 0x00#8) = true ∧
    -- K23: SWP R0, R0, [R2] (Rd = Rm: exchange) (R310)
    goes (start .svc 0x8000 0b0000#4 |> arm 0xE1020090 |> reg 0 0x1 |> reg 2 0x2000 |> word 0x2000 0x55555555)
      (fun t => readReg t 0 == 0x55555555 && t.pc == 0x00008004 && nzcv t == 0b0000#4 && t.mem.read 0x2000 == 0x01#8 && t.mem.read 0x2001 == 0x00#8 && t.mem.read 0x2002 == 0x00#8 && t.mem.read 0x2003 == 0x00#8) = true ∧
    -- K26: SWP R0, R1, [R2] with R2 misaligned (R310, R87)
    stops (start .svc 0x8000 0b0000#4 |> arm 0xE1020091 |> reg 2 0x2002) = true ∧
    -- K24: SWPB R0, R1, [R2] (R311)
    goes (start .svc 0x8000 0b0000#4 |> arm 0xE1420091 |> reg 1 0xAAAAAA11 |> reg 2 0x2001 |> word 0x2000 0x55667788)
      (fun t => readReg t 0 == 0x00000077 && t.pc == 0x00008004 && nzcv t == 0b0000#4 && t.mem.read 0x2000 == 0x88#8 && t.mem.read 0x2001 == 0x11#8 && t.mem.read 0x2002 == 0x66#8 && t.mem.read 0x2003 == 0x55#8) = true ∧
    -- K25: SWPB R0, R1, [R2], BIGEND = 1 (R311, R80)
    goes (start .svc 0x8000 0b0000#4 |> big |> arm 0xE1420091 |> reg 1 0xAAAAAA11 |> reg 2 0x2001 |> word 0x2000 0x55667788)
      (fun t => readReg t 0 == 0x00000066 && t.pc == 0x00008004 && nzcv t == 0b0000#4 && t.mem.read 0x2000 == 0x55#8 && t.mem.read 0x2001 == 0x11#8 && t.mem.read 0x2002 == 0x77#8 && t.mem.read 0x2003 == 0x88#8) = true := by decide +kernel

theorem test_arm_system_S1_to_S7 :
    -- S1: SWI 0x123456 from User mode, flags NC set (R321, R468)
    goes (start .usr 0x8000 0b1010#4 |> arm 0xEF123456 |> reg 14 0x1234)
      (fun t => t.pc == 0x00000008 && nzcv t == 0b1010#4 && t.cpsr.toWord.setWidth 8 == 0x93#8 && readBank t .svc 14 == 0x00008004 && t.spsrs.get .svc == some 0xA0000010) = true ∧
    -- S3: SWINE 0 with Z = 1 (fails) (R321, R143)
    goes (start .svc 0x8000 0b0100#4 |> arm 0x1F000000)
      (fun t => t.pc == 0x00008004 && nzcv t == 0b0100#4) = true ∧
    -- S4: undefined instruction (format 9) (R330, R468, R469)
    goes (start .usr 0x8000 0b0000#4 |> arm 0xE7F000F0)
      (fun t => t.pc == 0x00000004 && nzcv t == 0b0000#4 && t.cpsr.toWord.setWidth 8 == 0x9B#8 && readBank t .und 14 == 0x00008004 && t.spsrs.get .und == some 0x00000010) = true ∧
    -- S5: undefined instruction, condition fails (EQ, Z = 0) (R330)
    goes (start .svc 0x8000 0b0000#4 |> arm 0x07F000F0)
      (fun t => t.pc == 0x00008004 && nzcv t == 0b0000#4) = true ∧
    -- S6: CDP p1, 2, c3, c4, c5, 6 (no coprocessor) (R325, R324)
    goes (start .usr 0x8000 0b0000#4 |> arm 0xEE2431C5)
      (fun t => t.pc == 0x00000004 && nzcv t == 0b0000#4 && t.cpsr.toWord.setWidth 8 == 0x9B#8 && readBank t .und 14 == 0x00008004 && t.spsrs.get .und == some 0x00000010) = true ∧
    -- S7: MRC p15, 0, R0, c1, c0, 0 (no CP15 on this core) (R326, R324)
    goes (start .svc 0x8000 0b0000#4 |> arm 0xEE110F10 |> reg 0 0x5)
      (fun t => readReg t 0 == 0x00000005 && t.pc == 0x00000004 && nzcv t == 0b0000#4 && t.cpsr.toWord.setWidth 8 == 0x9B#8 && readBank t .und 14 == 0x00008004 && t.spsrs.get .und == some 0x00000013) = true := by decide +kernel

theorem test_arm_system_S11_to_S10 :
    -- S11: MRC p14, 0, R0, c0, c0 (debug comms channel) (R326, R329)
    stops (start .svc 0x8000 0b0000#4 |> arm 0xEE100E10) = true ∧
    -- S8: MCR p15, 0, R0, c1, c0, 0 (R327, R324)
    goes (start .svc 0x8000 0b0000#4 |> arm 0xEE010F10)
      (fun t => readReg t 0 == 0x00000000 && t.pc == 0x00000004 && nzcv t == 0b0000#4 && t.cpsr.toWord.setWidth 8 == 0x9B#8 && readBank t .und 14 == 0x00008004 && t.spsrs.get .und == some 0x00000013) = true ∧
    -- S9: LDC p1, c2, [R3, #16]! (no address computed, no write-back) (R328, R324)
    goes (start .svc 0x8000 0b0000#4 |> arm 0xEDB32104 |> reg 3 0x1000)
      (fun t => readReg t 3 == 0x00001000 && t.pc == 0x00000004 && nzcv t == 0b0000#4 && t.cpsr.toWord.setWidth 8 == 0x9B#8 && readBank t .und 14 == 0x00008004 && t.spsrs.get .und == some 0x00000013) = true ∧
    -- S10: STC p1, c2, [R3, #16] (R331, R324)
    goes (start .svc 0x8000 0b0000#4 |> arm 0xED832104 |> reg 3 0x1000)
      (fun t => readReg t 3 == 0x00001000 && t.pc == 0x00000004 && nzcv t == 0b0000#4 && t.cpsr.toWord.setWidth 8 == 0x9B#8 && readBank t .und 14 == 0x00008004 && t.spsrs.get .und == some 0x00000013) = true := by decide +kernel

theorem test_thumb_alu_T1_to_T6 :
    -- T1: LSL R0, R1, #2 (R341)
    goes (start .svc 0x8000 0b0000#4 |> thumb 0x0088 |> reg 1 0xC0000001)
      (fun t => readReg t 0 == 0x00000004 && t.pc == 0x00008002 && nzcv t == 0b0010#4) = true ∧
    -- T2: LSL R0, R1, #0 (a move; C kept) (R341)
    goes (start .svc 0x8000 0b0010#4 |> thumb 0x0008 |> reg 1 0x80000000)
      (fun t => readReg t 0 == 0x80000000 && t.pc == 0x00008002 && nzcv t == 0b1010#4) = true ∧
    -- T3: LSR R0, R1, #32 (field 0) (R342)
    goes (start .svc 0x8000 0b0000#4 |> thumb 0x0808 |> reg 1 0x80000000)
      (fun t => readReg t 0 == 0x00000000 && t.pc == 0x00008002 && nzcv t == 0b0110#4) = true ∧
    -- T4: LSR R0, R1, #1 (R342)
    goes (start .svc 0x8000 0b0000#4 |> thumb 0x0848 |> reg 1 0x3)
      (fun t => readReg t 0 == 0x00000001 && t.pc == 0x00008002 && nzcv t == 0b0010#4) = true ∧
    -- T5: ASR R2, R3, #1 (R343)
    goes (start .svc 0x8000 0b0000#4 |> thumb 0x105A |> reg 3 0x80000001)
      (fun t => readReg t 2 == 0xC0000000 && t.pc == 0x00008002 && nzcv t == 0b1010#4) = true ∧
    -- T6: ASR R2, R3, #32 (field 0) (R343)
    goes (start .svc 0x8000 0b0010#4 |> thumb 0x101A |> reg 3 0x7FFFFFFF)
      (fun t => readReg t 2 == 0x00000000 && t.pc == 0x00008002 && nzcv t == 0b0100#4) = true := by decide +kernel

theorem test_thumb_alu_T7_to_T12 :
    -- T7: ADD R0, R1, R2 (R344)
    goes (start .svc 0x8000 0b0000#4 |> thumb 0x1888 |> reg 1 0x7FFFFFFF |> reg 2 0x1)
      (fun t => readReg t 0 == 0x80000000 && t.pc == 0x00008002 && nzcv t == 0b1001#4) = true ∧
    -- T8: SUB R0, R1, R2 (R345)
    goes (start .svc 0x8000 0b0000#4 |> thumb 0x1A88 |> reg 1 0x3 |> reg 2 0x5)
      (fun t => readReg t 0 == 0xFFFFFFFE && t.pc == 0x00008002 && nzcv t == 0b1000#4) = true ∧
    -- T9: ADD R0, R1, #7 (R346)
    goes (start .svc 0x8000 0b0000#4 |> thumb 0x1DC8 |> reg 1 0xFFFFFFF9)
      (fun t => readReg t 0 == 0x00000000 && t.pc == 0x00008002 && nzcv t == 0b0110#4) = true ∧
    -- T10: SUB R0, R1, #1 (R347)
    goes (start .svc 0x8000 0b0000#4 |> thumb 0x1E48 |> reg 1 0x0)
      (fun t => readReg t 0 == 0xFFFFFFFF && t.pc == 0x00008002 && nzcv t == 0b1000#4) = true ∧
    -- T11: MOV R0, #0 (C, V kept) (R348)
    goes (start .svc 0x8000 0b0011#4 |> thumb 0x2000 |> reg 0 0x9)
      (fun t => readReg t 0 == 0x00000000 && t.pc == 0x00008002 && nzcv t == 0b0111#4) = true ∧
    -- T12: MOV R7, #255 (R348)
    goes (start .svc 0x8000 0b0000#4 |> thumb 0x27FF)
      (fun t => readReg t 7 == 0x000000FF && t.pc == 0x00008002 && nzcv t == 0b0000#4) = true := by decide +kernel

theorem test_thumb_alu_T13_to_T18 :
    -- T13: CMP R0, #255 (R349)
    goes (start .svc 0x8000 0b0000#4 |> thumb 0x28FF |> reg 0 0xFF)
      (fun t => t.pc == 0x00008002 && nzcv t == 0b0110#4) = true ∧
    -- T14: CMP R0, #1 (R349)
    goes (start .svc 0x8000 0b0000#4 |> thumb 0x2801 |> reg 0 0x80000000)
      (fun t => t.pc == 0x00008002 && nzcv t == 0b0011#4) = true ∧
    -- T15: ADD R0, #255 (R350)
    goes (start .svc 0x8000 0b0000#4 |> thumb 0x30FF |> reg 0 0xFFFFFF01)
      (fun t => readReg t 0 == 0x00000000 && t.pc == 0x00008002 && nzcv t == 0b0110#4) = true ∧
    -- T16: SUB R0, #1 (R351)
    goes (start .svc 0x8000 0b0000#4 |> thumb 0x3801 |> reg 0 0x80000000)
      (fun t => readReg t 0 == 0x7FFFFFFF && t.pc == 0x00008002 && nzcv t == 0b0011#4) = true ∧
    -- T17: AND R0, R1 (R352)
    goes (start .svc 0x8000 0b0011#4 |> thumb 0x4008 |> reg 0 0xFF00FF00 |> reg 1 0xFF00FF0)
      (fun t => readReg t 0 == 0x0F000F00 && t.pc == 0x00008002 && nzcv t == 0b0011#4) = true ∧
    -- T18: EOR R0, R1 (R353)
    goes (start .svc 0x8000 0b0000#4 |> thumb 0x4048 |> reg 0 0xFFFF |> reg 1 0xFFFF)
      (fun t => readReg t 0 == 0x00000000 && t.pc == 0x00008002 && nzcv t == 0b0100#4) = true := by decide +kernel

theorem test_thumb_alu_T20_to_T25 :
    -- T20: LSL R0, R1 (R1 = 33) (R354)
    goes (start .svc 0x8000 0b0010#4 |> thumb 0x4088 |> reg 0 0xFFFFFFFF |> reg 1 0x21)
      (fun t => readReg t 0 == 0x00000000 && t.pc == 0x00008002 && nzcv t == 0b0100#4) = true ∧
    -- T21: LSL R0, R1 (R1 = 0x100: low byte 0, C kept) (R354)
    goes (start .svc 0x8000 0b0010#4 |> thumb 0x4088 |> reg 0 0x80000000 |> reg 1 0x100)
      (fun t => readReg t 0 == 0x80000000 && t.pc == 0x00008002 && nzcv t == 0b1010#4) = true ∧
    -- T22: LSR R0, R1 (R1 = 32) (R355)
    goes (start .svc 0x8000 0b0000#4 |> thumb 0x40C8 |> reg 0 0x80000000 |> reg 1 0x20)
      (fun t => readReg t 0 == 0x00000000 && t.pc == 0x00008002 && nzcv t == 0b0110#4) = true ∧
    -- T23: ASR R0, R1 (R1 = 255) (R356)
    goes (start .svc 0x8000 0b0000#4 |> thumb 0x4108 |> reg 0 0x80000000 |> reg 1 0xFF)
      (fun t => readReg t 0 == 0xFFFFFFFF && t.pc == 0x00008002 && nzcv t == 0b1010#4) = true ∧
    -- T24: ADC R0, R1 (C = 1) (R357)
    goes (start .svc 0x8000 0b0010#4 |> thumb 0x4148 |> reg 0 0xFFFFFFFF |> reg 1 0x0)
      (fun t => readReg t 0 == 0x00000000 && t.pc == 0x00008002 && nzcv t == 0b0110#4) = true ∧
    -- T25: SBC R0, R1 (C = 0) (R358)
    goes (start .svc 0x8000 0b0000#4 |> thumb 0x4188 |> reg 0 0x0 |> reg 1 0x0)
      (fun t => readReg t 0 == 0xFFFFFFFF && t.pc == 0x00008002 && nzcv t == 0b1000#4) = true := by decide +kernel

theorem test_thumb_alu_T26_to_T31 :
    -- T26: ROR R0, R1 (R1 = 1) (R359)
    goes (start .svc 0x8000 0b0000#4 |> thumb 0x41C8 |> reg 0 0x1 |> reg 1 0x1)
      (fun t => readReg t 0 == 0x80000000 && t.pc == 0x00008002 && nzcv t == 0b1010#4) = true ∧
    -- T27: ROR R0, R1 (R1 = 32: value kept, C <- bit 31) (R359)
    goes (start .svc 0x8000 0b0000#4 |> thumb 0x41C8 |> reg 0 0x80000001 |> reg 1 0x20)
      (fun t => readReg t 0 == 0x80000001 && t.pc == 0x00008002 && nzcv t == 0b1010#4) = true ∧
    -- T28: TST R0, R1 (R360)
    goes (start .svc 0x8000 0b0010#4 |> thumb 0x4208 |> reg 0 0xF0 |> reg 1 0xF)
      (fun t => t.pc == 0x00008002 && nzcv t == 0b0110#4) = true ∧
    -- T29: NEG R0, R1 (of 0x80000000) (R361)
    goes (start .svc 0x8000 0b0000#4 |> thumb 0x4248 |> reg 1 0x80000000)
      (fun t => readReg t 0 == 0x80000000 && t.pc == 0x00008002 && nzcv t == 0b1001#4) = true ∧
    -- T30: NEG R0, R1 (of 0) (R361)
    goes (start .svc 0x8000 0b0000#4 |> thumb 0x4248 |> reg 0 0x7 |> reg 1 0x0)
      (fun t => readReg t 0 == 0x00000000 && t.pc == 0x00008002 && nzcv t == 0b0110#4) = true ∧
    -- T31: CMP R0, R1 (R362)
    goes (start .svc 0x8000 0b0000#4 |> thumb 0x4288 |> reg 0 0x1 |> reg 1 0x2)
      (fun t => t.pc == 0x00008002 && nzcv t == 0b1000#4) = true := by decide +kernel

theorem test_thumb_alu_T32_to_T37 :
    -- T32: CMN R0, R1 (R363)
    goes (start .svc 0x8000 0b0000#4 |> thumb 0x42C8 |> reg 0 0x1 |> reg 1 0xFFFFFFFF)
      (fun t => t.pc == 0x00008002 && nzcv t == 0b0110#4) = true ∧
    -- T33: ORR R0, R1 (R364)
    goes (start .svc 0x8000 0b0000#4 |> thumb 0x4308 |> reg 0 0xF0 |> reg 1 0xF)
      (fun t => readReg t 0 == 0x000000FF && t.pc == 0x00008002 && nzcv t == 0b0000#4) = true ∧
    -- T34: MUL R0, R1 (R365)
    goes (start .svc 0x8000 0b0000#4 |> thumb 0x4348 |> reg 0 0x6 |> reg 1 0x7)
      (fun t => readReg t 0 == 0x0000002A && t.pc == 0x00008002 && t.cpsr.n == false && t.cpsr.z == false && t.cpsr.v == false) = true ∧
    -- T35: MUL R0, R0 (Rd = Rs) (R365)
    stops (start .svc 0x8000 0b0000#4 |> thumb 0x4340 |> reg 0 0x6) = true ∧
    -- T36: BIC R0, R1 (R366)
    goes (start .svc 0x8000 0b0000#4 |> thumb 0x4388 |> reg 0 0xFF |> reg 1 0xF)
      (fun t => readReg t 0 == 0x000000F0 && t.pc == 0x00008002 && nzcv t == 0b0000#4) = true ∧
    -- T37: MVN R0, R1 (R367)
    goes (start .svc 0x8000 0b0000#4 |> thumb 0x43C8 |> reg 1 0x0)
      (fun t => readReg t 0 == 0xFFFFFFFF && t.pc == 0x00008002 && nzcv t == 0b1000#4) = true := by decide +kernel

theorem test_thumb_alu_T38_to_T44 :
    -- T38: ADD R8, R1 (high register; no flags) (R376)
    goes (start .svc 0x8000 0b1000#4 |> thumb 0x4488 |> reg 1 0x1 |> reg 8 0xFFFFFFFF)
      (fun t => readReg t 8 == 0x00000000 && t.pc == 0x00008002 && nzcv t == 0b1000#4) = true ∧
    -- T40: ADD PC, R0 (bit 0 of the sum dropped) (R376)
    goes (start .svc 0x8000 0b0000#4 |> thumb 0x4487 |> reg 0 0x101)
      (fun t => readReg t 0 == 0x00000101 && t.pc == 0x00008104 && nzcv t == 0b0000#4) = true ∧
    -- T39: ADD R0, PC (at 0x8002: reads 0x8006) (R376)
    goes (start .svc 0x8002 0b0000#4 |> thumb 0x4478 |> reg 0 0x10)
      (fun t => readReg t 0 == 0x00008016 && t.pc == 0x00008004 && nzcv t == 0b0000#4) = true ∧
    -- T41: CMP R8, R9 (R377)
    goes (start .svc 0x8000 0b0000#4 |> thumb 0x45C8 |> reg 8 0x5 |> reg 9 0x5)
      (fun t => t.pc == 0x00008002 && nzcv t == 0b0110#4) = true ∧
    -- T42: MOV R8, R0 (no flags) (R378)
    goes (start .svc 0x8000 0b0000#4 |> thumb 0x4680 |> reg 0 0x80000000)
      (fun t => readReg t 8 == 0x80000000 && t.pc == 0x00008002 && nzcv t == 0b0000#4) = true ∧
    -- T44: MOV PC, LR (R378)
    goes (start .svc 0x8000 0b0000#4 |> thumb 0x46F7 |> reg 14 0x9001)
      (fun t => t.pc == 0x00009000 && nzcv t == 0b0000#4) = true := by decide +kernel

theorem test_thumb_alu_T47_to_T51 :
    -- T47: BX R0 (to ARM) (R379)
    goes (start .svc 0x8000 0b0000#4 |> thumb 0x4700 |> reg 0 0x9000)
      (fun t => t.pc == 0x00009000 && nzcv t == 0b0000#4 && t.cpsr.toWord.setWidth 8 == 0x13#8) = true ∧
    -- T51: BX PC at a halfword-aligned address (R379)
    stops (start .svc 0x8002 0b0000#4 |> thumb 0x4778) = true := by decide +kernel

theorem test_thumb_load_store_U1_to_U6 :
    -- U1: LDR R0, [PC, #4] at 0x8002 (base = (pc + 4) AND NOT 3 = 0x8004) (R400)
    goes (start .svc 0x8002 0b0000#4 |> thumb 0x4801 |> word 0x8008 0xcafe)
      (fun t => readReg t 0 == 0x0000CAFE && t.pc == 0x00008004 && nzcv t == 0b0000#4) = true ∧
    -- U2: LDR R0, [PC, #4] at 0x8000 (base = 0x8004) (R400)
    goes (start .svc 0x8000 0b0000#4 |> thumb 0x4801 |> word 0x8008 0xcafe)
      (fun t => readReg t 0 == 0x0000CAFE && t.pc == 0x00008002 && nzcv t == 0b0000#4) = true ∧
    -- U3: STR R0, [R1, R2] (R401)
    goes (start .svc 0x8000 0b0000#4 |> thumb 0x5088 |> reg 0 0xDEADBEEF |> reg 1 0x1000 |> reg 2 0x8)
      (fun t => t.pc == 0x00008002 && nzcv t == 0b0000#4 && t.mem.read 0x1008 == 0xEF#8 && t.mem.read 0x1009 == 0xBE#8 && t.mem.read 0x100a == 0xAD#8 && t.mem.read 0x100b == 0xDE#8) = true ∧
    -- U4: STRB R0, [R1, R2] (R402)
    goes (start .svc 0x8000 0b0000#4 |> thumb 0x5488 |> reg 0 0xDEADBEEF |> reg 1 0x1000 |> reg 2 0x3 |> word 0x1000 0x11223344 |> word 0x1004 0x80f0a55a)
      (fun t => t.pc == 0x00008002 && nzcv t == 0b0000#4 && t.mem.read 0x1000 == 0x44#8 && t.mem.read 0x1001 == 0x33#8 && t.mem.read 0x1002 == 0x22#8 && t.mem.read 0x1003 == 0xEF#8) = true ∧
    -- U5: LDR R0, [R1, R2] (R403)
    goes (start .svc 0x8000 0b0000#4 |> thumb 0x5888 |> reg 1 0x1000 |> reg 2 0x4 |> word 0x1000 0x11223344 |> word 0x1004 0x80f0a55a)
      (fun t => readReg t 0 == 0x80F0A55A && t.pc == 0x00008002 && nzcv t == 0b0000#4) = true ∧
    -- U6: LDR R0, [R1, R2] (sum wraps) (R403)
    goes (start .svc 0x8000 0b0000#4 |> thumb 0x5888 |> reg 1 0xFFFFFFFC |> reg 2 0x1008 |> word 0x1000 0x11223344 |> word 0x1004 0x80f0a55a)
      (fun t => readReg t 0 == 0x80F0A55A && t.pc == 0x00008002 && nzcv t == 0b0000#4) = true := by decide +kernel

theorem test_thumb_load_store_U7_to_U12 :
    -- U7: LDRB R0, [R1, R2] (R404)
    goes (start .svc 0x8000 0b0000#4 |> thumb 0x5C88 |> reg 1 0x1000 |> reg 2 0x7 |> word 0x1000 0x11223344 |> word 0x1004 0x80f0a55a)
      (fun t => readReg t 0 == 0x00000080 && t.pc == 0x00008002 && nzcv t == 0b0000#4) = true ∧
    -- U8: STRH R0, [R1, R2] (R405)
    goes (start .svc 0x8000 0b0000#4 |> thumb 0x5288 |> reg 0 0xDEADBEEF |> reg 1 0x1000 |> reg 2 0x2 |> word 0x1000 0x11223344 |> word 0x1004 0x80f0a55a)
      (fun t => t.pc == 0x00008002 && nzcv t == 0b0000#4 && t.mem.read 0x1000 == 0x44#8 && t.mem.read 0x1001 == 0x33#8 && t.mem.read 0x1002 == 0xEF#8 && t.mem.read 0x1003 == 0xBE#8) = true ∧
    -- U9: LDRH R0, [R1, R2] (R406)
    goes (start .svc 0x8000 0b0000#4 |> thumb 0x5A88 |> reg 1 0x1000 |> reg 2 0x6 |> word 0x1000 0x11223344 |> word 0x1004 0x80f0a55a)
      (fun t => readReg t 0 == 0x000080F0 && t.pc == 0x00008002 && nzcv t == 0b0000#4) = true ∧
    -- U10: LDSB R0, [R1, R2] (R407)
    goes (start .svc 0x8000 0b0000#4 |> thumb 0x5688 |> reg 1 0x1000 |> reg 2 0x7 |> word 0x1000 0x11223344 |> word 0x1004 0x80f0a55a)
      (fun t => readReg t 0 == 0xFFFFFF80 && t.pc == 0x00008002 && nzcv t == 0b0000#4) = true ∧
    -- U11: LDSH R0, [R1, R2] (R408)
    goes (start .svc 0x8000 0b0000#4 |> thumb 0x5E88 |> reg 1 0x1000 |> reg 2 0x6 |> word 0x1000 0x11223344 |> word 0x1004 0x80f0a55a)
      (fun t => readReg t 0 == 0xFFFF80F0 && t.pc == 0x00008002 && nzcv t == 0b0000#4) = true ∧
    -- U12: LDSH R0, [R1, R2] (odd address) (R408, R87)
    stops (start .svc 0x8000 0b0000#4 |> thumb 0x5E88 |> reg 1 0x1000 |> reg 2 0x5 |> word 0x1000 0x11223344 |> word 0x1004 0x80f0a55a) = true := by decide +kernel

theorem test_thumb_load_store_U13_to_U18 :
    -- U13: STR R0, [R1, #124] (offset5 = 31) (R409)
    goes (start .svc 0x8000 0b0000#4 |> thumb 0x67C8 |> reg 0 0x55 |> reg 1 0x1000)
      (fun t => t.pc == 0x00008002 && nzcv t == 0b0000#4 && t.mem.read 0x107c == 0x55#8 && t.mem.read 0x107d == 0x00#8 && t.mem.read 0x107e == 0x00#8 && t.mem.read 0x107f == 0x00#8) = true ∧
    -- U14: LDR R0, [R1, #4] (R410)
    goes (start .svc 0x8000 0b0000#4 |> thumb 0x6848 |> reg 1 0x1000 |> word 0x1000 0x11223344 |> word 0x1004 0x80f0a55a)
      (fun t => readReg t 0 == 0x80F0A55A && t.pc == 0x00008002 && nzcv t == 0b0000#4) = true ∧
    -- U15: LDR R0, [R1, #4] with R1 = 0x1001 (R410, R87)
    stops (start .svc 0x8000 0b0000#4 |> thumb 0x6848 |> reg 1 0x1001 |> word 0x1000 0x11223344 |> word 0x1004 0x80f0a55a) = true ∧
    -- U16: STRB R0, [R1, #31] (R411)
    goes (start .svc 0x8000 0b0000#4 |> thumb 0x77C8 |> reg 0 0x1FF |> reg 1 0x1000)
      (fun t => t.pc == 0x00008002 && nzcv t == 0b0000#4 && t.mem.read 0x101c == 0x00#8 && t.mem.read 0x101d == 0x00#8 && t.mem.read 0x101e == 0x00#8 && t.mem.read 0x101f == 0xFF#8) = true ∧
    -- U17: LDRB R0, [R1, #5] (R412)
    goes (start .svc 0x8000 0b0000#4 |> thumb 0x7948 |> reg 1 0x1000 |> word 0x1000 0x11223344 |> word 0x1004 0x80f0a55a)
      (fun t => readReg t 0 == 0x000000A5 && t.pc == 0x00008002 && nzcv t == 0b0000#4) = true ∧
    -- U18: STRH R0, [R1, #62] (offset5 = 31) (R413)
    goes (start .svc 0x8000 0b0000#4 |> thumb 0x87C8 |> reg 0 0x12345678 |> reg 1 0x1000)
      (fun t => t.pc == 0x00008002 && nzcv t == 0b0000#4 && t.mem.read 0x103c == 0x00#8 && t.mem.read 0x103d == 0x00#8 && t.mem.read 0x103e == 0x78#8 && t.mem.read 0x103f == 0x56#8) = true := by decide +kernel

theorem test_thumb_load_store_U19_to_U24 :
    -- U19: LDRH R0, [R1, #2] (R414)
    goes (start .svc 0x8000 0b0000#4 |> thumb 0x8848 |> reg 1 0x1000 |> word 0x1000 0x11223344 |> word 0x1004 0x80f0a55a)
      (fun t => readReg t 0 == 0x00001122 && t.pc == 0x00008002 && nzcv t == 0b0000#4) = true ∧
    -- U20: LDRH R0, [R1, #2], BIGEND = 1 (R414, R80)
    goes (start .svc 0x8000 0b0000#4 |> big |> thumb 0x8848 |> reg 1 0x1000 |> word 0x1000 0x11223344 |> word 0x1004 0x80f0a55a)
      (fun t => readReg t 0 == 0x00003344 && t.pc == 0x00008002 && nzcv t == 0b0000#4) = true ∧
    -- U21: STR R0, [SP, #8] (R418)
    goes (start .svc 0x8000 0b0000#4 |> thumb 0x9002 |> reg 0 0x99 |> reg 13 0x1000)
      (fun t => t.pc == 0x00008002 && nzcv t == 0b0000#4 && t.mem.read 0x1008 == 0x99#8 && t.mem.read 0x1009 == 0x00#8 && t.mem.read 0x100a == 0x00#8 && t.mem.read 0x100b == 0x00#8) = true ∧
    -- U22: LDR R0, [SP, #1020] (word8 = 255) (R419)
    goes (start .svc 0x8000 0b0000#4 |> thumb 0x98FF |> reg 13 0x1000 |> word 0x13fc 0x31415926)
      (fun t => readReg t 0 == 0x31415926 && t.pc == 0x00008002 && nzcv t == 0b0000#4) = true ∧
    -- U23: ADD R0, PC, #8 at 0x8002 (R421)
    goes (start .svc 0x8002 0b0000#4 |> thumb 0xA002)
      (fun t => readReg t 0 == 0x0000800C && t.pc == 0x00008004 && nzcv t == 0b0000#4) = true ∧
    -- U24: ADD R0, SP, #1020 (R420)
    goes (start .svc 0x8000 0b0000#4 |> thumb 0xA8FF |> reg 13 0x1000)
      (fun t => readReg t 0 == 0x000013FC && t.pc == 0x00008002 && nzcv t == 0b0000#4) = true := by decide +kernel

theorem test_thumb_load_store_U25_to_U29 :
    -- U25: ADD SP, #508 (R422)
    goes (start .svc 0x8000 0b0100#4 |> thumb 0xB07F |> reg 13 0x1000)
      (fun t => readReg t 13 == 0x000011FC && t.pc == 0x00008002 && nzcv t == 0b0100#4) = true ∧
    -- U26: ADD SP, #-508 (SUB SP, #508) (R423)
    goes (start .svc 0x8000 0b0000#4 |> thumb 0xB0FF |> reg 13 0x1000)
      (fun t => readReg t 13 == 0x00000E04 && t.pc == 0x00008002 && nzcv t == 0b0000#4) = true ∧
    -- U27: PUSH (R0, R1, LR) (R424)
    goes (start .svc 0x8000 0b0000#4 |> thumb 0xB503 |> reg 0 0x1 |> reg 1 0x2 |> reg 13 0x1010 |> reg 14 0x8055)
      (fun t => readReg t 13 == 0x00001004 && t.pc == 0x00008002 && nzcv t == 0b0000#4 && t.mem.read 0x1004 == 0x01#8 && t.mem.read 0x1005 == 0x00#8 && t.mem.read 0x1006 == 0x00#8 && t.mem.read 0x1007 == 0x00#8 && t.mem.read 0x1008 == 0x02#8 && t.mem.read 0x1009 == 0x00#8 && t.mem.read 0x100a == 0x00#8 && t.mem.read 0x100b == 0x00#8 && t.mem.read 0x100c == 0x55#8 && t.mem.read 0x100d == 0x80#8 && t.mem.read 0x100e == 0x00#8 && t.mem.read 0x100f == 0x00#8) = true ∧
    -- U30: PUSH () (empty list) (R424)
    stops (start .svc 0x8000 0b0000#4 |> thumb 0xB400 |> reg 13 0x1000) = true ∧
    -- U28: POP (R4, PC) (R425)
    goes (start .svc 0x8000 0b0000#4 |> thumb 0xBD10 |> reg 13 0x1FF8 |> word 0x1ff8 0x11 |> word 0x1ffc 0x8055)
      (fun t => readReg t 4 == 0x00000011 && readReg t 13 == 0x00002000 && t.pc == 0x00008054 && nzcv t == 0b0000#4) = true ∧
    -- U29: POP (PC) with an even value (stays in Thumb state) (R425)
    goes (start .svc 0x8000 0b0000#4 |> thumb 0xBD00 |> reg 13 0x1FF8 |> word 0x1ff8 0x9000)
      (fun t => readReg t 13 == 0x00001FFC && t.pc == 0x00009000 && nzcv t == 0b0000#4) = true := by decide +kernel

theorem test_thumb_load_store_U32_to_U35 :
    -- U32: STMIA R0!, (R0, R1) (base lowest in list) (R426)
    goes (start .svc 0x8000 0b0000#4 |> thumb 0xC003 |> reg 0 0x1000 |> reg 1 0x11)
      (fun t => readReg t 0 == 0x00001008 && t.pc == 0x00008002 && nzcv t == 0b0000#4 && t.mem.read 0x1000 == 0x00#8 && t.mem.read 0x1001 == 0x10#8 && t.mem.read 0x1002 == 0x00#8 && t.mem.read 0x1003 == 0x00#8 && t.mem.read 0x1004 == 0x11#8 && t.mem.read 0x1005 == 0x00#8 && t.mem.read 0x1006 == 0x00#8 && t.mem.read 0x1007 == 0x00#8) = true ∧
    -- U33: STMIA R1!, (R0, R1) (base not lowest) (R426)
    stops (start .svc 0x8000 0b0000#4 |> thumb 0xC103 |> reg 1 0x1000) = true ∧
    -- U34: LDMIA R0!, (R1, R2) (R427)
    goes (start .svc 0x8000 0b0000#4 |> thumb 0xC806 |> reg 0 0x1000 |> word 0x1000 0x11223344 |> word 0x1004 0x80f0a55a)
      (fun t => readReg t 0 == 0x00001008 && readReg t 1 == 0x11223344 && readReg t 2 == 0x80F0A55A && t.pc == 0x00008002 && nzcv t == 0b0000#4) = true ∧
    -- U35: LDMIA R0!, (R0, R1) (base in list) (R427)
    stops (start .svc 0x8000 0b0000#4 |> thumb 0xC803 |> reg 0 0x1000 |> word 0x1000 0x11223344 |> word 0x1004 0x80f0a55a) = true := by decide +kernel

theorem test_thumb_branch_V1_to_V6 :
    -- V1: BEQ +0 -> pc + 4 (Z = 1) (R441)
    goes (start .svc 0x8000 0b0100#4 |> thumb 0xD000)
      (fun t => t.pc == 0x00008004 && nzcv t == 0b0100#4) = true ∧
    -- V2: BEQ (Z = 0, fails) (R441)
    goes (start .svc 0x8000 0b0000#4 |> thumb 0xD000)
      (fun t => t.pc == 0x00008002 && nzcv t == 0b0000#4) = true ∧
    -- V3: BNE -4 (offset8 = 0xFC: to pc + 4 - 8) (R441)
    goes (start .svc 0x8000 0b0000#4 |> thumb 0xD1FC)
      (fun t => t.pc == 0x00007FFC && nzcv t == 0b0000#4) = true ∧
    -- V4: BMI most negative (offset8 = 0x80: pc + 4 - 256) (R441)
    goes (start .svc 0x8000 0b1000#4 |> thumb 0xD480)
      (fun t => t.pc == 0x00007F04 && nzcv t == 0b1000#4) = true ∧
    -- V5: BGT most positive (offset8 = 0x7F: pc + 4 + 254) (R441)
    goes (start .svc 0x8000 0b0000#4 |> thumb 0xDC7F)
      (fun t => t.pc == 0x00008102 && nzcv t == 0b0000#4) = true ∧
    -- V6: BLE with Z = 0, N = V (fails) (R441)
    goes (start .svc 0x8000 0b0000#4 |> thumb 0xDD10)
      (fun t => t.pc == 0x00008002 && nzcv t == 0b0000#4) = true := by decide +kernel

theorem test_thumb_branch_V7_to_V15 :
    -- V7: BHI with C = 1, Z = 0 (R441)
    goes (start .svc 0x8000 0b0010#4 |> thumb 0xD810)
      (fun t => t.pc == 0x00008024 && nzcv t == 0b0010#4) = true ∧
    -- V9: SWI 0xAB from User mode (R443, R468)
    goes (start .usr 0x8000 0b0100#4 |> thumb 0xDFAB)
      (fun t => t.pc == 0x00000008 && nzcv t == 0b0100#4 && t.cpsr.toWord.setWidth 8 == 0x93#8 && readBank t .svc 14 == 0x00008002 && t.spsrs.get .svc == some 0x40000030) = true ∧
    -- V11: B +2046 (offset11 = 0x3FF) (R444)
    goes (start .svc 0x8000 0b0000#4 |> thumb 0xE3FF)
      (fun t => t.pc == 0x00008802 && nzcv t == 0b0000#4) = true ∧
    -- V12: B -2048 (offset11 = 0x400) (R444)
    goes (start .svc 0x8000 0b0000#4 |> thumb 0xE400)
      (fun t => t.pc == 0x00007804 && nzcv t == 0b0000#4) = true ∧
    -- V13: BL first half, offset high = 0 (R446)
    goes (start .svc 0x8000 0b0000#4 |> thumb 0xF000)
      (fun t => readReg t 14 == 0x00008004 && t.pc == 0x00008002 && nzcv t == 0b0000#4) = true ∧
    -- V15: BL first half, offset high = 0x400 (most negative: - 0x400000) (R446)
    goes (start .svc 0x400000 0b0000#4 |> thumb 0xF400)
      (fun t => readReg t 14 == 0x00000004 && t.pc == 0x00400002 && nzcv t == 0b0000#4) = true := by decide +kernel

theorem test_thumb_branch_V16_to_V18 :
    -- V16: BL second half, offset low = 0x7E, LR = 0x8004 (R447)
    goes (start .svc 0x8002 0b0000#4 |> thumb 0xF87E |> reg 14 0x8004)
      (fun t => readReg t 14 == 0x00008005 && t.pc == 0x00008100 && nzcv t == 0b0000#4) = true ∧
    -- V18: BL second half alone, LR odd (bit 0 of the target dropped) (R447)
    goes (start .svc 0x8000 0b0000#4 |> thumb 0xF800 |> reg 14 0x9001)
      (fun t => readReg t 14 == 0x00008003 && t.pc == 0x00009000 && nzcv t == 0b0000#4) = true := by decide +kernel

/-- P8, P9: MSR CPSR_c to another mode switches the bank at once (R23, R244). -/
theorem test_arm_psr_P8_P9 :
    goes (start .svc 0x8000 0 |> arm 0xE121F000 |> reg 0 0xD2 |> reg 13 0x1111)
      (fun t => t.pc == 0x8004 && t.cpsr.toWord == 0xD2 && readReg t 13 == 0 && readBank t .svc 13 == 0x1111) = true ∧
    goes (start .svc 0x8000 0 |> arm 0xE121F000 |> reg 0 0x1F |> usr 13 0x5555)
      (fun t => t.cpsr.toWord == 0x1F && readReg t 13 == 0x5555) = true := by decide +kernel

/-- X3, X4: an IRQ from Thumb state saves next + 4, and SUBS PC, R14, #4 goes back to Thumb state (R468, R469, R483). -/
theorem test_exception_X3_X4 :
    goes (start .usr 0x8006 0 |> thumb 0x46C0 |> linesNow true true false)
      (fun t => readReg t 14 == 0x800A && t.spsrs.irq == 0x30 && t.cpsr.toWord == 0x92 && t.pc == 0x18) = true ∧
    goes (start .irq 0x40 0 |> masks true false |> arm 0xE25EF004 |> reg 14 0x800A |> spsr 0x30)
      (fun t => t.pc == 0x8006 && t.cpsr.toWord == 0x30) = true := by decide +kernel

/-- X5 to X8: FIQ from IRQ mode banks R8; FIQ before IRQ; a masked IRQ is not taken; a masked FIQ lets the IRQ in (R38, R470, R479). -/
theorem test_exception_X5_to_X8 :
    goes (start .irq 0x44 0 |> masks true false |> reg 8 0x88 |> linesNow true false true)
      (fun t => readReg t 14 == 0x48 && t.spsrs.fiq == 0x92 && t.cpsr.toWord == 0xD1 && t.pc == 0x1C
        && readReg t 8 == 0 && readBank t .usr 8 == 0x88) = true ∧
    goes (start .usr 0x8004 0 |> linesNow true false false)
      (fun t => readBank t .fiq 14 == 0x8008 && t.spsrs.fiq == 0x10 && t.cpsr.toWord == 0xD1 && t.pc == 0x1C) = true ∧
    goes (start .svc 0x8004 0 |> masks true false |> arm 0xE1A00000 |> linesNow true true false)
      (fun t => t.cpsr.toWord == 0x93 && t.pc == 0x8008) = true ∧
    goes (start .usr 0x8004 0 |> masks false true |> linesNow true false false)
      (fun t => readBank t .irq 14 == 0x8008 && t.spsrs.irq == 0x50 && t.cpsr.toWord == 0xD2 && t.pc == 0x18) = true := by
  decide +kernel

/-- X9, X10: a Data Abort writes the base back and loads nothing; R14_abt is the instruction + 8 in Thumb state too (R290, R474). -/
theorem test_exception_X9_X10 :
    goes (start .usr 0x8000 0b0010#4 |> arm 0xE5B10004 |> reg 0 0x55 |> reg 1 0x1000 |> abortAt 0x1004 0x1008)
      (fun t => readReg t 0 == 0x55 && readReg t 1 == 0x1004 && readReg t 14 == 0x8008 && t.spsrs.abt == 0x20000010
        && t.cpsr.toWord == 0x20000097 && t.pc == 0x10) = true ∧
    goes (start .usr 0x8002 0 |> thumb 0x6848 |> reg 0 0x55 |> reg 1 0x1000 |> abortAt 0x1004 0x1008)
      (fun t => readReg t 0 == 0x55 && readReg t 14 == 0x800A && t.spsrs.abt == 0x30 && t.cpsr.toWord == 0x97
        && t.pc == 0x10) = true := by decide +kernel

/-- X12, X13: an LDM that aborts keeps its base and does not branch; an STM that aborts stores what is not aborted (R309). -/
theorem test_exception_X12_X13 :
    goes (start .svc 0x8000 0 |> arm 0xE8908007 |> reg 0 0x1000 |> word 0x1000 0xA0 |> abortAt 0x1008 0x100C)
      (fun t => readReg t 0 == 0x1000 && readReg t 14 == 0x8008 && t.pc == 0x10) = true ∧
    goes (start .svc 0x8000 0 |> arm 0xE92D0003 |> reg 0 0x77 |> reg 1 0x88 |> reg 13 0x2000 |> abortAt 0x1FFC 0x2000)
      (fun t => readBank t .svc 13 == 0x1FF8 && memRead false t.mem 0x1FF8 .word == 0x77 && memRead false t.mem 0x1FFC .word == 0
        && readReg t 14 == 0x8008 && t.pc == 0x10) = true := by decide +kernel

/-- X14, X15: a Prefetch Abort, whatever the word, with R14_abt the address + 4 in both states (R473, R469). -/
theorem test_exception_X14_X15 :
    goes (start .usr 0x8000 0 |> arm 0xFFFFFFFF |> abortFetch 0x8000 0x8004)
      (fun t => readReg t 14 == 0x8004 && t.spsrs.abt == 0x10 && t.cpsr.toWord == 0x97 && t.pc == 0xC) = true ∧
    goes (start .usr 0x8002 0 |> thumb 0xDE00 |> abortFetch 0x8002 0x8004)
      (fun t => readReg t 14 == 0x8006 && t.spsrs.abt == 0x30 && t.cpsr.toWord == 0x97 && t.pc == 0xC) = true := by decide +kernel

/-- X20: a reset leaves the mode, I, F, T and the pc as the rule says, and the flags and R0 as they were (R522). -/
theorem test_exception_X20 :
    goes (start .usr 0x8002 0b0110#4 |> thumb 0x46C0 |> reg 0 0x1234 |> linesNow false false false)
      (fun t => t.cpsr.toWord == 0x600000D3 && t.pc == 0 && readReg t 0 == 0x1234) = true := by decide +kernel

/-- A reset in the middle of an STM of three words, after two of its accesses: two words are stored and one is not, in whatever state the
registers are left, and the reset is taken (R522, R305); after none of them, no word is. -/
theorem test_reset_in_step :
    goes (start .usr 0x8000 0b0110#4 |> arm 0xE8810007 |> reg 0 0xA0 |> reg 1 0x1000 |> reg 2 0xA2 |> word 0x1008 0x55 |> resetIn 2)
      (fun t => memRead false t.mem 0x1000 .word == 0xA0 && memRead false t.mem 0x1004 .word == 0x1000
        && memRead false t.mem 0x1008 .word == 0x55 && t.pc == 0 && t.cpsr.mode == .svc && t.cpsr.i && t.cpsr.f) = true ∧
    goes (start .usr 0x8000 0 |> arm 0xE8810007 |> reg 0 0xA0 |> reg 1 0x1000 |> resetIn 0)
      (fun t => memRead false t.mem 0x1000 .word == 0 && t.pc == 0) = true := by decide +kernel

/-- The pins of a data access (R97 to R102, R277): LDRT drives nTRANS LOW in Supervisor mode, LDR HIGH; SWPB drives LOCK in both cycles;
STRB drives the byte on four lanes (R83). -/
theorem test_pins :
    goes (start .svc 0x8000 0 |> arm 0xE4B10004 |> reg 1 0x1000)
      (fun t => t.bus.map (fun a => (a.nOPC, a.nTRANS, a.nRW, a.MAS, a.nM)) ==
        [(false, true, false, 0b10#2, 0b01100#5), (true, false, false, 0b10#2, 0b01100#5)]) = true ∧
    goes (start .svc 0x8000 0 |> arm 0xE1420091 |> reg 1 0xAB |> reg 2 0x2001)
      (fun t => t.bus.map (fun a => (a.LOCK, a.nRW, a.dout)) ==
        [(false, false, none), (true, false, none), (true, true, some 0xABABABAB)]) = true := by decide +kernel

/-- The hazard (R314): after a User-bank LDM, MOV R0, R13 is refused and MOV R0, R0 runs. -/
theorem test_hazard :
    stops { (start .svc 0x8000 0 |> arm 0xE1A0000D) with userLdm := true } = true ∧
    goes { (start .svc 0x8000 0 |> arm 0xE1A00000) with userLdm := true } (fun t => t.pc == 0x8004 && !t.userLdm) = true := by
  decide +kernel

/-- A store into the next slot: the slot that follows holds what it held when it was fetched (R128). -/
theorem test_slot_written :
    goes (start .svc 0x8000 0 |> arm 0xE5810000 |> reg 0 0xE1A00001 |> reg 1 0x8004 |> word 0x8004 0xE1A00002)
      (fun t => t.pipe.first == some 0xE1A00002 && memRead false t.mem 0x8004 .word == 0xE1A00001) = true := by decide +kernel

/-! ## Witnesses: for each statement with hypotheses, operands and a state that meet them, clause by clause -/

/-- Supervisor mode, ARM state, pc 0x8000, R1 = 0x1000, R2 = 0x80000001, R13 = 0x2000. -/
def armState : State := start .svc 0x8000 0b0010#4 |> reg 1 0x1000 |> reg 2 0x80000001 |> reg 13 0x2000

/-- The same in Thumb state. -/
def thumbState : State := { armState with cpsr := { armState.cpsr with t := true } }

/-- The same in IRQ mode, with an SPSR. -/
def irqState (w : Word) : State := start .irq 0x8000 0 |> reg 14 0x9004 |> reg 1 0x1000 |> spsr w

theorem test_witness_DecodeThenEncode : ∃ i, decode (.arm 0xE1A00000) = .ok i := ⟨_, rfl⟩

theorem test_witness_ReservedCondition :
    (0xF0000000#32 : Word).extractLsb' 28 4 = 0b1111#4 ∧ (0xFFFFFFFF#32 : Word).extractLsb' 28 4 = 0b1111#4 ∧
    armState.cpsr.t = false := by decide +kernel

theorem test_witness_ThumbUnallocated :
    unallocatedThumb 0xE800 = true ∧ unallocatedThumb 0xEFFF = true ∧ bxNonZero 0x4701 = true ∧
    decodeThumb 0xE7FF = .ok (.tB 0x7FF) := by decide +kernel

theorem test_witness_FailedCondition :
    isThumb (.ldm .eq false true true 15 0) = false ∧ armState.cpsr.t = false ∧ condPassed .eq armState.cpsr = false ∧
    room armState = true ∧ room { armState with pc := 0xFFFFFFF8 } = true ∧ room { armState with pc := 0xFFFFFFFC } = false := by
  decide +kernel

/-- Rotate 0 and not 0. -/
theorem test_witness_ImmediateOperand : (⟨0, 2⟩ : RotImm).rotate = 0 ∧ (⟨1, 2⟩ : RotImm).rotate ≠ 0 := by decide

/-- Amounts 0, 1 and 31, each in one clause of its type. -/
theorem test_witness_ShiftByImmediate :
    (0 : BitVec 5) = 0 ∧ (1 : BitVec 5) ≠ 0 ∧ (31 : BitVec 5) ≠ 0 := by decide

/-- Amounts at the edges of each row: 0, 1, 31, 32, 33, 255, and for ROR 32, 64 and 33. -/
theorem test_witness_ShiftByRegister :
    (0 : Byte) = 0 ∧ 1 ≤ (1 : Byte).toNat ∧ (31 : Byte).toNat ≤ 31 ∧ (32 : Byte).toNat = 32 ∧ 33 ≤ (33 : Byte).toNat ∧
    33 ≤ (255 : Byte).toNat ∧ ((32 : Byte) ≠ 0 ∧ (32 : Byte).toNat % 32 = 0) ∧ ((64 : Byte) ≠ 0 ∧ (64 : Byte).toNat % 32 = 0) ∧
    (33 : Byte).toNat % 32 ≠ 0 ∧ (⟨15, .lsl, 1⟩ : ShReg).rs = 15 ∧ condPassed .al armState.cpsr = true := by decide +kernel

theorem test_witness_PcAsOperand :
    armState.cpsr.t = false ∧ pcAligned armState = true ∧ (⟨3, .lsl, 15⟩ : ShImm).rm = 15 ∧ condPassed .cs armState.cpsr = true ∧
    (⟨1, .lsl, 15⟩ : ShReg).rm = 15 ∧ AluOp.add ≠ .mov ∧ AluOp.add ≠ .mvn ∧ compares .add = false := by decide +kernel

theorem test_witness_LogicalOperations :
    logical .eor = true ∧ executes (dpInstr .eor .al true 1 14 (.shReg ⟨2, .ror, 1⟩)) armState = true ∧
    executes (dpInstr .mov .cs false 1 0 (.imm ⟨15, 255⟩)) armState = true ∧ (14 : Reg) ≠ 15 ∧ room armState = true := by decide +kernel

theorem test_witness_ArithmeticOperations :
    arithmetic .rsc = true ∧ executes (dpInstr .rsc .al true 15 0 (.shImm ⟨0, .ror, 15⟩)) armState = true ∧ (0 : Reg) ≠ 15 ∧
    room armState = true := by decide +kernel

theorem test_witness_Comparisons :
    compares .teq = true ∧ executes (dpInstr .teq .al true 1 0 (.shReg ⟨2, .asr, 1⟩)) armState = true ∧ room armState = true := by
  decide +kernel

/-- A result with bits [1:0] = 00 and one with 10. -/
theorem test_witness_DataProcessingToPc :
    compares .add = false ∧ executes (dpInstr .add .al false 1 15 (.imm ⟨0, 4⟩)) armState = true ∧
    (dpResult .add (readReg armState 1) ((Op2.imm ⟨0, 4⟩).value armState).value true).extractLsb' 0 2 = 0#2 ∧
    (dpResult .add (readReg armState 1) ((Op2.imm ⟨0, 2⟩).value armState).value true).extractLsb' 0 2 ≠ 0#2 := by decide +kernel

/-- An SPSR with T = 1, one with T = 0 and both alignments of the result, the modes with none, and an SPSR whose mode is no mode. -/
theorem test_witness_DataProcessingReturn :
    compares .sub = false ∧ executes (dpInstr .sub .al true 14 15 (.imm ⟨0, 4⟩)) (irqState 0x30) = true ∧
    (∃ p : Psr, (irqState 0x30).spsrs.get .irq = some p.toWord ∧ p.t = true) ∧
    (∃ p : Psr, (irqState 0x1F).spsrs.get .irq = some p.toWord ∧ p.t = false) ∧
    (dpResult .sub (readReg (irqState 0x1F) 14) 4 false).extractLsb' 0 2 = 0#2 ∧
    (dpResult .sub (readReg (irqState 0x1F) 14) 2 false).extractLsb' 0 2 ≠ 0#2 ∧
    executes (.subImm .al true 14 15 ⟨0, 4⟩) (start .sys 0x8000 0) = true ∧
    executes (.subImm .al true 14 15 ⟨0, 4⟩) (start .usr 0x8000 0) = true ∧
    badReturn (irqState 0xD5) = true ∧ executes (.subImm .al true 14 15 ⟨0, 4⟩) (irqState 0xD5) = true :=
  ⟨by decide +kernel, by decide +kernel,
    ⟨{ n := false, z := false, c := false, v := false, reserved := 0, i := false, f := false, t := true, mode := .usr },
      by decide +kernel⟩,
    ⟨{ n := false, z := false, c := false, v := false, reserved := 0, i := false, f := false, t := false, mode := .sys },
      by decide +kernel⟩, by decide +kernel⟩

theorem test_witness_CpsrLayout : ∃ q : Psr, Psr.ofWord 0xF00000D3 = some q := ⟨_, rfl⟩

theorem test_witness_MrsCopiesPsr :
    armState.cpsr.t = false ∧ condPassed .al armState.cpsr = true ∧ room armState = true ∧ (14 : Reg) ≠ 15 ∧
    armState.spsrs.get armState.cpsr.mode = some 0 ∧ (start .usr 0 0).cpsr.mode = .usr ∧ (start .sys 0 0).cpsr.mode = .sys := by
  decide +kernel

/-- A write of the flags, one that would change T, and one of an illegal mode. -/
theorem test_witness_MsrCpsr :
    msrOf armState (.msrImm .al false 0b1000 ⟨2, 0xF⟩) = some (false, 0b1000#4, 0xF0000000) ∧
    executes (.msrImm .al false 0b1000 ⟨2, 0xF⟩) armState = true ∧ room armState = true ∧
    (∃ p : Psr, p.t = armState.cpsr.t ∧ ∀ k, k < 32 → p.toWord.getLsbD k =
      (if (0b1000#4).getLsbD (k / 8) = true ∧ (armState.cpsr.mode ≠ .usr ∨ 24 ≤ k) then (0xF0000000#32).getLsbD k
        else armState.cpsr.toWord.getLsbD k)) ∧
    armState.cpsr.mode ≠ .usr ∧ (0b1001#4).getLsbD 0 = true ∧ (0xF3#32).getLsbD 5 ≠ armState.cpsr.t ∧
    (0xC0#32).getLsbD 5 = armState.cpsr.t ∧ Mode.ofBits ((0xC0#32).extractLsb' 0 5) = none :=
  ⟨by decide +kernel, by decide +kernel, by decide +kernel,
    ⟨{ armState.cpsr with n := true, z := true, c := true, v := true }, by decide +kernel⟩,
    by decide +kernel, by decide +kernel, by decide +kernel, by decide +kernel, by decide +kernel⟩

theorem test_witness_MsrSpsr :
    msrOf (irqState 0x1F) (.msrReg .al true 0b1111 1) = some (true, 0b1111#4, 0x1000) ∧
    executes (.msrReg .al true 0b1111 1) (irqState 0x1F) = true ∧ room (irqState 0x1F) = true ∧
    (irqState 0x1F).spsrs.get (irqState 0x1F).cpsr.mode = some 0x1F ∧
    (∀ k, k < 32 → (0x1000#32).getLsbD k = (if (0b1111#4).getLsbD (k / 8) = true then (0x1000#32).getLsbD k else (0x1F#32).getLsbD k)) ∧
    (start .usr 0 0).cpsr.mode = .usr := by decide +kernel

theorem test_witness_MultiplyResult :
    mulOf armState (.mul .al true 0 1 2) = some (true, 0, 0x1000) ∧ executes (.mul .al true 0 1 2) armState = true ∧
    mulOf armState (.mla .al false 0 1 1 2) = some (false, 0, 0x2000) ∧ executes (.mla .al false 0 1 1 2) armState = true ∧
    executes (.tMul 1 2) thumbState = true ∧ room armState = true ∧ room thumbState = true := by decide +kernel

theorem test_witness_MultiplyLongResult :
    mulLongOf armState (.smull .al true 3 0 1 2) = some (true, 3, 0, 0xFFFFF80000001000) ∧
    executes (.smull .al true 3 0 1 2) armState = true ∧ executes (.umlal .al false 3 0 1 2) armState = true ∧
    room armState = true := by decide +kernel

theorem test_witness_MultiplyLaws : 0 < (2#32).toInt * (3#32).toInt ∧ (0xFFFFFFFF#32).toInt * (3#32).toInt < 0 := by decide +kernel

/-- Memory and a device region, each with and without R15 as the destination. -/
theorem test_witness_SingleLoad :
    loadOf armState (.ldrImmPre .al true true 1 0 4) = some ⟨.word, true, 1, 0, ⟨0x1004, some 0x1004⟩⟩ ∧
    executes (.ldrImmPre .al true true 1 0 4) armState = true ∧ accessible armState 0x1004 .word true false = true ∧
    isMemory armState 0x1004 = true ∧ room armState = true ∧ executes (.ldrImmPre .al true true 1 15 4) armState = true ∧
    isMemory (region 0x1000 0x2000 .device armState) 0x1004 = false ∧
    executes (.ldrImmPre .al true true 1 15 4) (region 0x1000 0x2000 .device armState) = true ∧
    accessible (region 0x1000 0x2000 .device armState) 0x1004 .word true false = true ∧
    room (region 0x1000 0x2000 .device armState) = true ∧ executes (.tLdshReg 1 2 3) thumbState = true := by decide +kernel

/-- RAM, ROM, and R15 as the register stored. -/
theorem test_witness_SingleStore :
    storeOf armState (.strImmPost .al false 1 15 4) = some ⟨.word, true, 1, 15, ⟨0x1000, some 0xFFC⟩⟩ ∧
    executes (.strImmPost .al false 1 15 4) armState = true ∧ room armState = true ∧
    accessible armState 0x1000 .word true true = true ∧ isRam armState 0x1000 = true ∧
    isRam (region 0x1000 0x1001 .rom armState) 0x1000 = false := by decide +kernel

/-- An aborted load, and a misaligned halfword store that is not aborted. -/
theorem test_witness_SingleAbort :
    loadOf armState (.ldrImmPre .al true true 1 0 4) = some ⟨.word, true, 1, 0, ⟨0x1004, some 0x1004⟩⟩ ∧
    executes (.ldrImmPre .al true true 1 0 4) armState = true ∧
    (abortAt 0x1004 0x1005 armState).env.aborts 0x1004 .word .data true false = true ∧
    storeOf armState (.strhImm .al true true false 1 0 1) = some ⟨.half, true, 1, 0, ⟨0x1001, none⟩⟩ ∧
    executes (.strhImm .al true true false 1 0 1) armState = true ∧ armState.env.aborts 0x1001 .half .data true true = false ∧
    misaligned 0x1001 .half = true := by decide +kernel

theorem test_witness_AccessPins :
    ∃ t, exec (.ldrtImm .al true 1 0 4) armState = .next t ∧
      ((loadOf armState (.ldrtImm .al true 1 0 4)).isSome && executes (.ldrtImm .al true 1 0 4) armState
        && t.bus.length == 1) = true := nextAnd_exists (by decide +kernel)

/-- LDM with write-back and R15, LDM of the User bank, POP with R15; a block of which one word alone is in a device region; and LDM of the
User bank in User and in System mode. -/
theorem test_witness_BlockLoad :
    ([(.ldm .al false true true 13 0x8001, armState), (.ldmUser .al true false false 1 0x6000, armState),
      (.tPop true 1, thumbState)].all (fun x : Instr × State =>
        match blockLoadOf x.2 x.1 with
        | some b => !isReturn x.1 && executes x.1 x.2 && bankOk x.1 x.2 && b.fits && !b.aborts x.2 false && b.all (isMemory x.2)
            && room x.2
        | none => false)) = true ∧
    (match blockLoadOf (region 0x1004 0x1008 .device armState) (.ldm .al false true true 1 0b11100) with
      | some b => !b.aborts (region 0x1004 0x1008 .device armState) false
          && isMemory (region 0x1004 0x1008 .device armState) (b.addr 0)
          && !isMemory (region 0x1004 0x1008 .device armState) (b.addr 1)
      | none => false) = true ∧
    executes (.ldmUser .al true false false 1 0x6000) (start .usr 0x8000 0) = true ∧
    executes (.ldmUser .al true false false 1 0x6000) (start .sys 0x8000 0) = true := by decide +kernel

/-- An SPSR to restore, a mode with none, and an SPSR whose mode is no mode. -/
theorem test_witness_BlockLoadReturn :
    (executes (.ldmRet .al false true true 1 1) (start .sys 0x8000 0) = true ∧
      executes (.ldmRet .al false true true 1 1) (start .usr 0x8000 0) = true ∧ badReturn (irqState 0xD5) = true ∧
      (match blockLoadOf (irqState 0xD5) (.ldmRet .al false true true 1 1) with
        | some b => executes (.ldmRet .al false true true 1 1) (irqState 0xD5) && b.fits && !b.aborts (irqState 0xD5) false
        | none => false) = true) ∧
    ∃ b q, blockLoadOf (irqState 0x30) (.ldmRet .al false true true 1 1) = some b ∧
      executes (.ldmRet .al false true true 1 1) (irqState 0x30) = true ∧ b.fits = true ∧ b.aborts (irqState 0x30) false = false ∧
      b.all (isMemory (irqState 0x30)) = true ∧ (irqState 0x30).spsrs.get (irqState 0x30).cpsr.mode = some (Psr.toWord q) :=
  ⟨by decide +kernel, _,
    { n := false, z := false, c := false, v := false, reserved := 0, i := false, f := false, t := true, mode := .usr }, rfl,
    by decide +kernel⟩

/-- STM with the base lowest in its list, STM of the User bank with R15, PUSH; the last ends at the top of the address space; a block of
which one word alone is in ROM; and STM of the User bank in User and in System mode. -/
theorem test_witness_BlockStore :
    ([(.stm .al false true true 1 0b110, armState), (.stmUser .al true true false 1 0xA000, armState),
      (.tPush true 1, { thumbState with regs := thumbState.regs.set .r13Svc 0 })].all (fun x : Instr × State =>
        match blockStoreOf x.2 x.1 with
        | some b => executes x.1 x.2 && bankOk x.1 x.2 && b.fits && !b.aborts x.2 true && b.all (isRam x.2) && room x.2
        | none => false)) = true ∧
    (match blockStoreOf (region 0x1004 0x1008 .rom armState) (.stm .al false true true 1 0b11100) with
      | some b => !b.aborts (region 0x1004 0x1008 .rom armState) true
          && isRam (region 0x1004 0x1008 .rom armState) (b.addr 0)
          && !isRam (region 0x1004 0x1008 .rom armState) (b.addr 1)
      | none => false) = true ∧
    executes (.stmUser .al true true false 1 0xA000) (start .usr 0x8000 0) = true ∧
    executes (.stmUser .al true true false 1 0xA000) (start .sys 0x8000 0) = true := by decide +kernel

/-- A load and a store of which the second word is aborted; a misaligned block, not all aborted and all aborted; and one that wraps. -/
theorem test_witness_BlockAbort :
    ([(.ldm .al false true true 1 0b11100, abortAt 0x1004 0x1008 armState, false),
      (.stmUser .al false true false 1 0b11100, abortAt 0x1004 0x1008 armState, true)].all
      (fun x : Instr × State × Bool =>
        match (if x.2.2 then blockStoreOf x.2.1 x.1 else blockLoadOf x.2.1 x.1) with
        | some b => executes x.1 x.2.1 && bankOk x.1 x.2.1 && !b.wraps && wordAligned b.start && b.aborts x.2.1 x.2.2
        | none => false)) = true ∧
    (match blockLoadOf (abortAt 0x80000003 0x80000008 armState) (.ldm .al false true false 2 0b11000) with
      | some b => executes (.ldm .al false true false 2 0b11000) armState && !b.wraps && !wordAligned b.start
          && b.aborts (abortAt 0x80000003 0x80000008 armState) false && !b.abortsAll (abortAt 0x80000003 0x80000008 armState) false
          && b.abortsAll (abortAt 0x80000000 0x80000008 armState) false
      | none => false) = true ∧
    (match blockStoreOf (armState |> reg 1 0xFFFFFFFC) (.stm .al false true false 1 0b11000) with
      | some b => executes (.stm .al false true false 1 0b11000) armState && b.wraps
      | none => false) = true := by decide +kernel

/-- A swap that completes in RAM, in ROM and in a device region, one whose read is aborted, one whose write alone is, and one at a
misaligned address. -/
theorem test_witness_Swap :
    swapOf (.swpb .al 1 0 0) = some (.byte, 1, 0, 0) ∧ executes (.swpb .al 1 0 0) armState = true ∧
    accessible armState (readReg armState 1) .byte true false = true ∧ accessible armState (readReg armState 1) .byte true true = true ∧
    isRam armState (readReg armState 1) = true ∧ room armState = true ∧
    isRam (region 0x1000 0x1001 .rom armState) 0x1000 = false ∧ isMemory (region 0x1000 0x1001 .rom armState) 0x1000 = true ∧
    isMemory (region 0x1000 0x1001 .device armState) 0x1000 = false ∧
    accessible (region 0x1000 0x1001 .device armState) 0x1000 .byte true true = true ∧
    swapOf (.swp .al 2 0 0) = some (.word, 2, 0, 0) ∧ executes (.swp .al 2 0 0) armState = true ∧
    armState.env.aborts (readReg armState 2) .word .data true false = false ∧ misaligned (readReg armState 2) .word = true ∧
    (abortAt 0x1000 0x1001 armState).env.aborts 0x1000 .byte .data true false = true ∧
    (let e : Env := { armState.env with
        abortRules := [⟨0x1000, 0x1001, true, true, true, true, true, true, true, false, true, false⟩] }
     e.aborts 0x1000 .byte .data true false = false ∧ e.aborts 0x1000 .byte .data true true = true) := by decide +kernel

theorem test_witness_ArmBranch : armState.cpsr.t = false ∧ condPassed .cs armState.cpsr = true := by decide +kernel

/-- Targets with bits [1:0] = 01, 00 and 10, in ARM and in Thumb state. -/
theorem test_witness_BranchExchange :
    bxOf armState (.bx .al 2) = some 0x80000001 ∧ executes (.bx .al 2) armState = true ∧ (0x80000001#32).getLsbD 0 = true ∧
    bxOf thumbState (.tBx 1) = some 0x1000 ∧ executes (.tBx 1) thumbState = true ∧ (0x1000#32).extractLsb' 0 2 = 0b00#2 ∧
    (readReg { thumbState with pc := 0x8002 } 15).extractLsb' 0 2 = 0b10#2 ∧
    executes (.tBx 15) { thumbState with pc := 0x8002 } = true := by decide +kernel

/-- A condition that passes and one that fails, with and without the last halfword. -/
theorem test_witness_ThumbBranches :
    thumbState.cpsr.t = true ∧ { thumbState with pc := 0xFFFFFFFE }.cpsr.t = true ∧ condBranchOf (.tBcs 0x80) = some (.cs, 0x80#8) ∧ condPassed .cs thumbState.cpsr = true ∧
    condPassed .eq thumbState.cpsr = false ∧ room { thumbState with pc := 0xFFFFFFFC } = true ∧
    room { thumbState with pc := 0xFFFFFFFE } = false := by decide +kernel

theorem test_witness_ThumbLongBranch : thumbState.cpsr.t = true ∧ room thumbState = true ∧ pcAligned thumbState = true := by
  decide +kernel

theorem test_witness_ThumbDataProcessing :
    (thumbDp thumbState (.tLslReg 1 2)).isSome = true ∧ executes (.tLslReg 1 2) thumbState = true ∧
    (thumbDp thumbState (.tCmpHd 5 15)).isSome = true ∧ executes (.tCmpHd 5 15) thumbState = true ∧ room thumbState = true := by
  decide +kernel

theorem test_witness_ThumbArmEquivalent :
    armEquivalent (.tNeg 1 2) = some (.rsbImm .al true 1 2 ⟨0, 0⟩) ∧ thumbState.cpsr.t = true ∧ thumbState.pc.toNat + 4 < 2 ^ 32 ∧
    nextAnd (fun _ => true) (exec (.rsbImm .al true 1 2 ⟨0, 0⟩) { thumbState with cpsr := { thumbState.cpsr with t := false } }) = true := by decide +kernel

/-- A high destination, R15 as the destination, and the PC with bit 1 set. -/
theorem test_witness_ThumbRegisterWrites :
    highOf thumbState (.tAddHd 5 1) = some (13, 0x3000) ∧ executes (.tAddHd 5 1) thumbState = true ∧
    highOf thumbState (.tMovHd 7 2) = some (15, 0x80000001) ∧ executes (.tMovHd 7 2) thumbState = true ∧
    thumbAddressOf { thumbState with pc := 0x8002 } (.tAddPc 0 1) = some (0, 0x8008) ∧ room thumbState = true := by decide +kernel

/-- Fields that break a rule; and instructions at the top of the address space that nothing but the pc's advance can stop. -/
theorem test_witness_RestrictionsRefused :
    Instr.broken (.mul .cs false 0 1 0) = some .clash ∧ breaksRule (.mul .cs false 0 1 0) = true ∧
    condPassed (condOf (.mul .cs false 0 1 0)) armState.cpsr = true ∧
    Instr.broken (.tLdmia 0 0) = some .emptyList ∧ breaksRule (.tLdmia 0 0) = true ∧
    condPassed (condOf (.tLdmia 0 0)) thumbState.cpsr = true ∧
    ([(.stm .al false true true 1 0b11100, { armState with pc := 0xFFFFFFFC }),
      (.msrImm .al false 0b1000 ⟨2, 15⟩, { armState with pc := 0xFFFFFFFC }),
      (.tLdrReg 1 1 0, { thumbState with pc := 0xFFFFFFFE })].all (fun x : Instr × State =>
        executes x.1 x.2 && !writesPc x.1 && unobstructed x.1 x.2 && !room x.2)) = true := by decide +kernel

theorem test_witness_Traps :
    trapOf (.swi .al 1) = some .swi ∧ executes (.swi .al 1) armState = true ∧ trapOf (.tSwi 1) = some .swi ∧
    executes (.tSwi 1) thumbState = true ∧ trapOf (.undef .cs 0 0) = some .undefined ∧ executes (.undef .cs 0 0) armState = true ∧
    trapOf (.ldc .al true true false true 3 2 15 4) = some .undefined ∧
    executes (.ldc .al true true false true 3 2 15 4) armState = true := by decide +kernel

theorem test_witness_ReturnRoundTrip : pcAligned armState = true ∧ pcAligned { thumbState with pc := 0x8002 } = true := by decide +kernel

/-- Reset; FIQ with IRQ; IRQ with the FIQ line HIGH and with F = 1; and a fetch that is aborted, no request taken. -/
theorem test_witness_BoundaryOrder :
    (lines (linesNow true false false armState)).resetAfter = none ∧ (lines (linesNow true true false armState)).resetAfter = none ∧
    (lines armState).resetAfter = none ∧
    (lines (linesNow false false false armState)).nRESET = false ∧
    ((lines (linesNow true false false armState)).nFIQ = false ∧ armState.cpsr.f = false) ∧
    ((lines (linesNow true true false armState)).nFIQ = true ∧ (lines (linesNow true true false armState)).nIRQ = false ∧
      armState.cpsr.i = false) ∧
    (masks false true armState).cpsr.f = true ∧
    ((lines armState).nRESET = true ∧ (lines armState).nFIQ = true ∧ (lines armState).nIRQ = true ∧
      pcAligned armState = true ∧ fetchAborts (abortFetch 0x8000 0x8001 armState) = true) := by decide +kernel

/-- A reset in the middle of an exception entry, of an STM of three words (between them and after them), of a store, of a swap and of a
move, each a step that would end. -/
theorem test_witness_ResetLeaves :
    ([(linesNow true false true armState, 0), (armState |> arm 0xE881001C, 2), (armState |> arm 0xE881001C, 3),
      (armState |> arm 0xE5812000, 0), (armState |> arm 0xE5812000, 1), (armState |> arm 0xE1012092, 1), (armState |> arm 0xE1010090, 2),
      (armState |> arm 0xE1A00001, 0)].all (fun x : State × Nat =>
        let s : State := { x.1 with inputs := [{ lines x.1 with resetAfter := some x.2 }] }
        (lines s).nRESET && (lines s).resetAfter == some x.2 && nextAnd (fun _ => true) (wholeStep s))) = true ∧
    (match fetch (armState |> arm 0xE881001C) with
      | .run i v => (blockStoreOf v i).map (fun b => (b.regs.length, b.start)) == some (3, 0x1000#32)
      | _ => false) = true ∧
    (match fetch (armState |> arm 0xE5812000) with | .run i v => (storeOf v i).isSome | _ => false) = true ∧
    (match fetch (armState |> arm 0xE1010090) with | .run i _ => (swapOf i).isSome | _ => false) = true ∧
    (match fetch (armState |> arm 0xE1A00001) with | .run i v => !storesMem i v | _ => false) = true ∧
    (match fetch (linesNow true false true armState) with | .taken _ => true | _ => false) = true ∧
    outside 0x1007 (0x1000 + 4) 4 = false ∧ outside 0x100C 0x1000 12 = true := by decide +kernel

/-- Each clause of the table of banks at the ends of its range. -/
theorem test_witness_Banking :
    (0 : Reg).toNat ≤ 7 ∧ (7 : Reg).toNat ≤ 7 ∧ 8 ≤ (8 : Reg).toNat ∧ (12 : Reg).toNat ≤ 12 := by decide

/-- A word at the top of the address space, a halfword, and a byte at any address. -/
theorem test_witness_MemoryBytes :
    misaligned 0xFFFFFFFC .word = false ∧ misaligned 0xFFFFFFFE .half = false ∧ misaligned 0xFFFFFFFF .byte = false ∧
    Memory.wf ([] : Memory) = true ∧ outside 0xFFFFFFFB 0xFFFFFFFC 4 = true ∧ outside 0x1004 0x1000 4 = true := by decide +kernel

/-- A completed instruction and a register, a flag, an SPSR and a byte that its frame keeps. -/
theorem test_witness_Frames :
    (∃ t, exec (.ldrImmPre .al true true 1 0 4) armState = .next t ∧
      (!mayWrite (.ldrImmPre .al true true 1 0 4) armState.cpsr.mode .r2 && !(flagsWritten (.ldrImmPre .al true true 1 0 4)).c
        && !storesMem (.ldrImmPre .al true true 1 0 4) armState && t.pc == 0x8004) = true) ∧
    (∃ t, exec (.strImmPre .al true false 1 2 4) armState = .next t ∧
      ((storeOf armState (.strImmPre .al true false 1 2 4)).isSome && outside 0x1003 0x1004 4 && outside 0x1008 0x1004 4
        && t.mem.read 0x1004 == 1) = true) ∧
    (∃ t, exec (.swp .al 1 0 2) armState = .next t ∧ (outside 0x1004 (readReg armState 1) 4 && t.mem.read 0x1003 == 0x80) = true) ∧
    (∃ t, exec (.stm .al false true false 1 0b110) armState = .next t ∧
      (outside 0x1008 0x1000 8 && t.mem.read 0x1007 == 0x80) = true) :=
  ⟨nextAnd_exists (by decide +kernel), nextAnd_exists (by decide +kernel), nextAnd_exists (by decide +kernel),
    nextAnd_exists (by decide +kernel)⟩

/-- BX, MSR to each PSR, a return, a trap and a Data Abort: what the frame of the status registers lets change. -/
theorem test_witness_FrameCpsr :
    isBx (.bx .al 2) = true ∧ nextAnd (fun t => t.cpsr.t) (exec (.bx .al 2) armState) = true ∧
    isMsrCpsr (.msrImm .al false 8 ⟨2, 15⟩) = true ∧ isMsrSpsr (.msrReg .al true 8 1) = true ∧
    isReturn (.movShImm .al true 15 ⟨0, .lsl, 14⟩) = true ∧ trapOf (.swi .al 0) = some .swi ∧
    nextAnd (fun t => t.pc == 0x10) (exec (.ldrImmPre .al true false 1 0 4) (abortAt 0x1004 0x1005 armState)) = true := by decide +kernel

theorem test_witness_StepRuns :
    (lines armState).resetAfter = none ∧ (boundary (lines armState) armState).isNone = true ∧ pcAligned armState = true ∧ fetchAborts armState = false ∧
    isMemory armState armState.pc = true ∧ armState.pipe.first = none ∧
    decodeArm (memRead false armState.mem armState.pc .word) = .ok (.andShImm .eq false 0 0 ⟨0, .lsl, 0⟩) ∧
    armState.userLdm = false := by decide +kernel

/-- A slot whose contents changed, with and without the hazard; the hazard with a slot read now, and in the state that an LDM of the User
bank leaves, its next slot (MOV R0, R13) prefetched. -/
theorem test_witness_Hazards :
    ((lines armState).resetAfter = none ∧ pcAligned armState = true ∧ fetchAborts armState = false ∧
      isMemory armState armState.pc = true ∧ armState.pipe.first = none ∧ { armState with userLdm := true }.userLdm = true) ∧
    goes (armState |> arm 0xE8D16000 |> word 0x8004 0xE1A0000D) (fun t => t.userLdm
      && t.pipe.first == some (memRead t.env.bigEndian t.mem t.pc .word) && t.pc == 0x8004 && (boundary (lines t) t).isNone
      && (lines t).resetAfter == none && pcAligned t && !fetchAborts t && isMemory t t.pc
      && decodeFetched false (memRead t.env.bigEndian t.mem t.pc .word) == .ok (.movShImm .al false 0 ⟨0, .lsl, 13⟩)
      && usesBanked (.movShImm .al false 0 ⟨0, .lsl, 13⟩) t.cpsr) = true ∧
    (boundary (lines armState) armState).isNone = true ∧ (0xE1A00001#32 : Word) ≠ memRead false armState.mem armState.pc .word ∧
    decodeFetched false 0xE1A00001 = .ok (.movShImm .al false 0 ⟨0, .lsl, 1⟩) ∧
    decodeFetched false 0 = .ok (.andShImm .eq false 0 0 ⟨0, .lsl, 0⟩) ∧
    usesBanked (.movShImm .al false 0 ⟨0, .lsl, 13⟩) armState.cpsr = true ∧
    decodeFetched false 0xE1A0000D = .ok (.movShImm .al false 0 ⟨0, .lsl, 13⟩) := by decide +kernel

theorem test_witness_InvKept :
    Inv armState ∧ ∃ t, step armState = .next t ∧ (t.pc == 0x8004) = true :=
  ⟨⟨by decide +kernel, by decide +kernel⟩, nextAnd_exists (by decide +kernel)⟩

/-- From User mode: an instruction, an exception, a reset, and a reset in the middle of an instruction. -/
theorem test_witness_UserModeConfined :
    (start .usr 0x8000 0).cpsr.mode = .usr ∧ (∃ t, step (start .usr 0x8000 0) = .next t ∧ (t.cpsr.mode == .usr) = true) ∧
    (∃ t, step (start .usr 0x8000 0 |> arm 0xEF000000) = .next t ∧ (t.cpsr.mode == .svc) = true) ∧
    (∃ t, step (start .usr 0x8000 0 |> linesNow false true true) = .next t ∧ (t.pc == 0) = true) ∧
    (∃ t, step (start .usr 0x8000 0 |> resetIn 0) = .next t ∧ (t.pc == 0) = true) :=
  ⟨rfl, nextAnd_exists (by decide +kernel), nextAnd_exists (by decide +kernel), nextAnd_exists (by decide +kernel),
    nextAnd_exists (by decide +kernel)⟩

/-- T changed by BX, by an entry, by a reset at a boundary and in the middle of a step, and by a return. -/
theorem test_witness_StateChanges :
    goes (start .svc 0x8000 0 |> arm 0xE12FFF12 |> reg 2 1) (fun t => t.cpsr.t) = true ∧
    goes (start .svc 0x8000 0 |> thumb 0xDF00) (fun t => !t.cpsr.t) = true ∧
    goes (start .svc 0x8000 0 |> thumb 0x46C0 |> linesNow false true true) (fun t => !t.cpsr.t) = true ∧
    goes (start .svc 0x8000 0 |> thumb 0x46C0 |> resetIn 0) (fun t => !t.cpsr.t) = true ∧
    goes (start .svc 0x8000 0 |> arm 0xE1B0F00E |> spsr 0x30) (fun t => t.cpsr.t) = true := by decide +kernel

end Sys2Proof.Tests
end

section
/-! The effect of each instruction behind its condition and its restrictions: one shared operation for each shape. -/

namespace Sys2Proof.Machine

open Sys2Proof.Claims

/-- The 32-bit multiplies of either state: S and Rd (43_arm_multiply R251, R252, 47_thumb_alu R365). -/
def mulOf : Instr → Option (Bool × Reg)
  | .mul _ sf rd _ _ => some (sf, rd)
  | .mla _ sf rd _ _ _ => some (sf, rd)
  | .tMul _ rd => some (true, lo rd)
  | _ => none

/-- The long multiplies: S, RdHi and RdLo (R253 to R256). -/
def mulLongOf : Instr → Option (Bool × Reg × Reg)
  | .umull _ sf hi lo _ _ => some (sf, hi, lo)
  | .umlal _ sf hi lo _ _ => some (sf, hi, lo)
  | .smull _ sf hi lo _ _ => some (sf, hi, lo)
  | .smlal _ sf hi lo _ _ => some (sf, hi, lo)
  | _ => none

/-- The instructions that only give a register an address: Thumb formats 12 and 13 (48_thumb_load_store R420 to R423) and the
first half of a Thumb BL (49_thumb_branch R446). -/
def setRegOf : Instr → Option Reg
  | .tAddPc rd _ => some (lo rd)
  | .tAddSp rd _ => some (lo rd)
  | .tAddSpImm _ => some 13
  | .tSubSpImm _ => some 13
  | .tBlHi _ => some 14
  | _ => none

/-- The unconditional B of either state (40_arm_branch R191, 49_thumb_branch R444). -/
def isBranch : Instr → Bool
  | .b _ _ => true
  | .tB _ => true
  | _ => false

/-- A branch that leaves a return address in R14: BL, and the second half of a Thumb BL (R192, R447). -/
def isBranchLink : Instr → Bool
  | .bl _ _ => true
  | .tBlLo _ => true
  | _ => false

/-- What an instruction does in `s` where its condition passes and its fields keep their restrictions: one constructor for each
operation of the machine that instructions share, with the shape of the instructions that are it. -/
inductive Effect (s : State) : Instr → Result → Prop
  | dataProcess (op : AluOp) (c : Cond) (sf : Bool) (rn rd : Reg) (o : Op2) (hop : compares op = false) :
    Effect s (dpInstr op c sf rn rd o) (dataProcess op sf (readReg s rn) rd (o.value s) s)
  | compare (op : AluOp) (c : Cond) (sf : Bool) (rn rd : Reg) (o : Op2) (hop : compares op = true) :
    Effect s (dpInstr op c sf rn rd o) (compare op (readReg s rn) (o.value s) s)
  | thumbAlu {i : Instr} {op : AluOp} {rd : Reg} {a : Word} {o : Shifted} (hi : thumbDp s i = some (op, rd, a, o))
    (hop : compares op = false) : Effect s i (thumbAlu op rd a o s)
  | thumbCompare {i : Instr} {op : AluOp} {rd : Reg} {a : Word} {o : Shifted} (hi : thumbDp s i = some (op, rd, a, o))
    (hop : compares op = true) : Effect s i (thumbCompare op a o s)
  | readPsr (c : Cond) (spsr : Bool) (rd : Reg) : Effect s (.mrs c spsr rd) (readPsr spsr rd s)
  | writePsr {i : Instr} {spsr : Bool} {mask : BitVec 4} {v : Word} (hi : msrOf s i = some (spsr, mask, v)) :
    Effect s i (writePsr spsr mask v s)
  | multiply {i : Instr} {sf : Bool} {rd : Reg} (v : Word) (hi : mulOf i = some (sf, rd)) : Effect s i (finishMul sf rd v s)
  | multiplyLong {i : Instr} {sf : Bool} {hi lo : Reg} (v : BitVec 64) (hm : mulLongOf i = some (sf, hi, lo)) :
    Effect s i (finishMulLong sf hi lo v s)
  | load {i : Instr} {x : Xfer} (hi : loadOf s i = some x) : Effect s i (loadSingle x.kind x.priv x.rn x.rd x.loc s)
  | store {i : Instr} {x : Xfer} (hi : storeOf s i = some x) : Effect s i (storeSingle x.kind.size x.priv x.rn x.rd x.loc s)
  | swap {i : Instr} {size : Size} {rn rd rm : Reg} (hi : swapOf i = some (size, rn, rd, rm)) : Effect s i (swap size rn rd rm s)
  | blockLoad {i : Instr} {b : Block} (why : Refusal) (hi : blockLoadOf s i = some b) :
    Effect s i (if bankOk i s then blockLoad (blockEndOf i) b.mode b.rn b.regs b.start b.wb s else .refused why)
  | blockStore {i : Instr} {b : Block} (why : Refusal) (hi : blockStoreOf s i = some b) :
    Effect s i (if bankOk i s then blockStore b.mode b.rn b.regs b.start b.wb s else .refused why)
  | trap {i : Instr} {e : Exc} (hi : trapOf i = some e) : Effect s i (.next (takeTrap e s))
  | exchange {i : Instr} {a : Word} (hi : bxOf s i = some a) : Effect s i (branchExchange a s)
  | high {i : Instr} {rd : Reg} {v : Word} (hi : highOf s i = some (rd, v)) : Effect s i (writeHigh rd v s)
  | setReg {i : Instr} {rd : Reg} (v : Word) (hi : setRegOf i = some rd) : Effect s i (advance (writeReg s rd v))
  | condBranch {i : Instr} {c : Cond} {off : BitVec 8} (hi : condBranchOf i = some (c, off)) : Effect s i (branchIf c off s)
  | branch {i : Instr} (a : Word) (hi : isBranch i = true) : Effect s i (.next (branchTo a s))
  | branchLink {i : Instr} (a v : Word) (hi : isBranchLink i = true) : Effect s i (.next (branchTo a (writeReg s 14 v)))

/-- Every instruction is an effect behind its condition (30_encoding R143; a Thumb instruction's is AL) and its restrictions. -/
theorem exec_effect (i : Instr) (s : State) : ∃ r, Effect s i r ∧ exec i s = conditional (condOf i) i.broken s r := by
  cases i with
  | andImm c sf rn rd o => exact ⟨_, .dataProcess .and c sf rn rd (.imm o) rfl, rfl⟩
  | andShImm c sf rn rd o => exact ⟨_, .dataProcess .and c sf rn rd (.shImm o) rfl, rfl⟩
  | andShReg c sf rn rd o => exact ⟨_, .dataProcess .and c sf rn rd (.shReg o) rfl, rfl⟩
  | eorImm c sf rn rd o => exact ⟨_, .dataProcess .eor c sf rn rd (.imm o) rfl, rfl⟩
  | eorShImm c sf rn rd o => exact ⟨_, .dataProcess .eor c sf rn rd (.shImm o) rfl, rfl⟩
  | eorShReg c sf rn rd o => exact ⟨_, .dataProcess .eor c sf rn rd (.shReg o) rfl, rfl⟩
  | subImm c sf rn rd o => exact ⟨_, .dataProcess .sub c sf rn rd (.imm o) rfl, rfl⟩
  | subShImm c sf rn rd o => exact ⟨_, .dataProcess .sub c sf rn rd (.shImm o) rfl, rfl⟩
  | subShReg c sf rn rd o => exact ⟨_, .dataProcess .sub c sf rn rd (.shReg o) rfl, rfl⟩
  | rsbImm c sf rn rd o => exact ⟨_, .dataProcess .rsb c sf rn rd (.imm o) rfl, rfl⟩
  | rsbShImm c sf rn rd o => exact ⟨_, .dataProcess .rsb c sf rn rd (.shImm o) rfl, rfl⟩
  | rsbShReg c sf rn rd o => exact ⟨_, .dataProcess .rsb c sf rn rd (.shReg o) rfl, rfl⟩
  | addImm c sf rn rd o => exact ⟨_, .dataProcess .add c sf rn rd (.imm o) rfl, rfl⟩
  | addShImm c sf rn rd o => exact ⟨_, .dataProcess .add c sf rn rd (.shImm o) rfl, rfl⟩
  | addShReg c sf rn rd o => exact ⟨_, .dataProcess .add c sf rn rd (.shReg o) rfl, rfl⟩
  | adcImm c sf rn rd o => exact ⟨_, .dataProcess .adc c sf rn rd (.imm o) rfl, rfl⟩
  | adcShImm c sf rn rd o => exact ⟨_, .dataProcess .adc c sf rn rd (.shImm o) rfl, rfl⟩
  | adcShReg c sf rn rd o => exact ⟨_, .dataProcess .adc c sf rn rd (.shReg o) rfl, rfl⟩
  | sbcImm c sf rn rd o => exact ⟨_, .dataProcess .sbc c sf rn rd (.imm o) rfl, rfl⟩
  | sbcShImm c sf rn rd o => exact ⟨_, .dataProcess .sbc c sf rn rd (.shImm o) rfl, rfl⟩
  | sbcShReg c sf rn rd o => exact ⟨_, .dataProcess .sbc c sf rn rd (.shReg o) rfl, rfl⟩
  | rscImm c sf rn rd o => exact ⟨_, .dataProcess .rsc c sf rn rd (.imm o) rfl, rfl⟩
  | rscShImm c sf rn rd o => exact ⟨_, .dataProcess .rsc c sf rn rd (.shImm o) rfl, rfl⟩
  | rscShReg c sf rn rd o => exact ⟨_, .dataProcess .rsc c sf rn rd (.shReg o) rfl, rfl⟩
  | orrImm c sf rn rd o => exact ⟨_, .dataProcess .orr c sf rn rd (.imm o) rfl, rfl⟩
  | orrShImm c sf rn rd o => exact ⟨_, .dataProcess .orr c sf rn rd (.shImm o) rfl, rfl⟩
  | orrShReg c sf rn rd o => exact ⟨_, .dataProcess .orr c sf rn rd (.shReg o) rfl, rfl⟩
  | movImm c sf rd o => exact ⟨_, .dataProcess .mov c sf 0 rd (.imm o) rfl, rfl⟩
  | movShImm c sf rd o => exact ⟨_, .dataProcess .mov c sf 0 rd (.shImm o) rfl, rfl⟩
  | movShReg c sf rd o => exact ⟨_, .dataProcess .mov c sf 0 rd (.shReg o) rfl, rfl⟩
  | bicImm c sf rn rd o => exact ⟨_, .dataProcess .bic c sf rn rd (.imm o) rfl, rfl⟩
  | bicShImm c sf rn rd o => exact ⟨_, .dataProcess .bic c sf rn rd (.shImm o) rfl, rfl⟩
  | bicShReg c sf rn rd o => exact ⟨_, .dataProcess .bic c sf rn rd (.shReg o) rfl, rfl⟩
  | mvnImm c sf rd o => exact ⟨_, .dataProcess .mvn c sf 0 rd (.imm o) rfl, rfl⟩
  | mvnShImm c sf rd o => exact ⟨_, .dataProcess .mvn c sf 0 rd (.shImm o) rfl, rfl⟩
  | mvnShReg c sf rd o => exact ⟨_, .dataProcess .mvn c sf 0 rd (.shReg o) rfl, rfl⟩
  | tstImm c rn o => exact ⟨_, .compare .tst c false rn 0 (.imm o) rfl, rfl⟩
  | tstShImm c rn o => exact ⟨_, .compare .tst c false rn 0 (.shImm o) rfl, rfl⟩
  | tstShReg c rn o => exact ⟨_, .compare .tst c false rn 0 (.shReg o) rfl, rfl⟩
  | teqImm c rn o => exact ⟨_, .compare .teq c false rn 0 (.imm o) rfl, rfl⟩
  | teqShImm c rn o => exact ⟨_, .compare .teq c false rn 0 (.shImm o) rfl, rfl⟩
  | teqShReg c rn o => exact ⟨_, .compare .teq c false rn 0 (.shReg o) rfl, rfl⟩
  | cmpImm c rn o => exact ⟨_, .compare .cmp c false rn 0 (.imm o) rfl, rfl⟩
  | cmpShImm c rn o => exact ⟨_, .compare .cmp c false rn 0 (.shImm o) rfl, rfl⟩
  | cmpShReg c rn o => exact ⟨_, .compare .cmp c false rn 0 (.shReg o) rfl, rfl⟩
  | cmnImm c rn o => exact ⟨_, .compare .cmn c false rn 0 (.imm o) rfl, rfl⟩
  | cmnShImm c rn o => exact ⟨_, .compare .cmn c false rn 0 (.shImm o) rfl, rfl⟩
  | cmnShReg c rn o => exact ⟨_, .compare .cmn c false rn 0 (.shReg o) rfl, rfl⟩
  | tLslImm | tLsrImm | tAsrImm | tAddReg | tSubReg | tAddImm3 | tSubImm3 | tMovImm | tAddImm8 | tSubImm8 | tAnd | tEor
  | tLslReg | tLsrReg | tAsrReg | tAdc | tSbc | tRorReg | tNeg | tOrr | tBic | tMvn => exact ⟨_, .thumbAlu rfl rfl, rfl⟩
  | tCmpImm | tTst | tCmpReg | tCmn | tCmpHd | tCmpHs => exact ⟨_, .thumbCompare rfl rfl, rfl⟩
  | mrs => exact ⟨_, .readPsr _ _ _, rfl⟩
  | msrReg | msrImm => exact ⟨_, .writePsr rfl, rfl⟩
  | mul | mla | tMul => exact ⟨_, .multiply _ rfl, rfl⟩
  | umull | umlal | smull | smlal => exact ⟨_, .multiplyLong _ rfl, rfl⟩
  | ldrhReg | ldrhImm | ldrsbReg | ldrsbImm | ldrshReg | ldrshImm | ldrImmPre | ldrImmPost | ldrtImm | ldrRegPre | ldrRegPost
  | ldrtReg | ldrbImmPre | ldrbImmPost | ldrbtImm | ldrbRegPre | ldrbRegPost | ldrbtReg | tLdrPc | tLdrReg | tLdrbReg
  | tLdrhReg | tLdsbReg | tLdshReg | tLdrImm | tLdrbImm | tLdrhImm | tLdrSp => exact ⟨_, .load rfl, rfl⟩
  | strhReg | strhImm | strImmPre | strImmPost | strtImm | strRegPre | strRegPost | strtReg | strbImmPre | strbImmPost
  | strbtImm | strbRegPre | strbRegPost | strbtReg | tStrReg | tStrbReg | tStrhReg | tStrImm | tStrbImm | tStrhImm | tStrSp =>
    exact ⟨_, .store rfl, rfl⟩
  | swp | swpb => exact ⟨_, .swap rfl, rfl⟩
  | ldm | ldmRet | tPop | tLdmia => exact ⟨_, .blockLoad .noSpsr rfl, rfl⟩
  | ldmUser => exact ⟨_, .blockLoad .userBankMode rfl, rfl⟩
  | stm | stmUser | tPush | tStmia => exact ⟨_, .blockStore .userBankMode rfl, rfl⟩
  | undef | stc | ldc | cdp | mcr | mrc | swi | tSwi => exact ⟨_, .trap rfl, rfl⟩
  | bx | tBx => exact ⟨_, .exchange rfl, rfl⟩
  | tAddHd | tAddHs | tMovHd | tMovHs => exact ⟨_, .high rfl, rfl⟩
  | tAddPc | tAddSp | tAddSpImm | tSubSpImm | tBlHi => exact ⟨_, .setReg _ rfl, rfl⟩
  | tBeq | tBne | tBcs | tBcc | tBmi | tBpl | tBvs | tBvc | tBhi | tBls | tBge | tBlt | tBgt | tBle =>
    exact ⟨_, .condBranch rfl, rfl⟩
  | b | tB => exact ⟨_, .branch _ rfl, rfl⟩
  | bl | tBlLo => exact ⟨_, .branchLink _ _ rfl, rfl⟩

/-- What a next state of an instruction can be: the instruction only advanced, or it had its effect. -/
theorem exec_next {i : Instr} {s t : State} (h : exec i s = .next t) : advance s = .next t ∨ Effect s i (.next t) := by
  obtain ⟨r, he, hx⟩ := exec_effect i s
  rw [hx] at h
  obtain ⟨-, -, rfl⟩ | ⟨-, ha⟩ := conditional_next h
  · exact .inr he
  · exact .inl ha

end Sys2Proof.Machine
end

section
/-! How the operations end: what is carried over from the state an instruction begins in, and the ways a transfer goes on. -/

namespace Sys2Proof.Machine

open Sys2Proof.Claims

/-! ## Where an operation advances or moves the pc -/

theorem advance_of_no_room {s : State} (h : room s = false) : advance s = .refused .runOffTop :=
  if_neg (by simpa [room] using h)

theorem advance_regs {s t : State} (h : advance s = .next t) : t.regs = s.regs := by
  obtain ⟨-, rfl⟩ := advance_next h
  rfl

theorem advance_cpsr {s t : State} (h : advance s = .next t) : t.cpsr = s.cpsr := by
  obtain ⟨-, rfl⟩ := advance_next h
  rfl

theorem branchExchange_regs {a : Word} {s t : State} (h : branchExchange a s = .next t) : t.regs = s.regs := by
  obtain ⟨-, rfl⟩ | ⟨-, -, rfl⟩ := branchExchange_next h <;> rfl

/-- BX changes nothing of the CPSR but T. -/
theorem branchExchange_cpsr {a : Word} {s t : State} (h : branchExchange a s = .next t) :
    t.cpsr = { s.cpsr with t := t.cpsr.t } := by
  obtain ⟨-, rfl⟩ | ⟨-, -, rfl⟩ := branchExchange_next h <;> rfl

theorem exceptionReturn_regs {m : Bool} {a : Word} {s t : State} (h : exceptionReturn m a s = .next t) : t.regs = s.regs := by
  obtain ⟨w, p, -, -, ⟨-, rfl⟩ | ⟨-, -, rfl⟩ | ⟨-, -, -, rfl⟩⟩ := exceptionReturn_next h <;> rfl

/-- A conditional branch goes to its target or advances. -/
theorem branchIf_next {c : Cond} {off : BitVec 8} {s t : State} (h : branchIf c off s = .next t) :
    t = branchTo (s.pc + 4 + branchOffset off 1) s ∨ advance s = .next t := by
  unfold branchIf at h
  split at h
  · exact .inl (Host.Outcome.next.inj h).symm
  · exact .inr h

/-- A format 5 ADD or MOV branches to its result or writes Rd. -/
theorem writeHigh_next {rd : Reg} {v : Word} {s t : State} (h : writeHigh rd v s = .next t) :
    t = branchTo (halfMask v) s ∨ advance (writeReg s rd v) = .next t := by
  unfold writeHigh at h
  split at h
  · exact .inl (Host.Outcome.next.inj h).symm
  · exact .inr h

/-! ## Data processing, multiplies, PSR transfers -/

/-- Data processing returns from an exception, branches, or writes Rd and the flags. -/
theorem dataProcess_next {op : AluOp} {sf : Bool} {a : Word} {rd : Reg} {o : Shifted} {s t : State}
    (h : dataProcess op sf a rd o s = .next t) :
    (rd = 15 ∧ sf = true ∧ exceptionReturn false (alu op a o s.cpsr).result s = .next t) ∨
    (rd = 15 ∧ sf = false ∧ t = branchTo (alu op a o s.cpsr).result s) ∨
    (rd ≠ 15 ∧
      advance { writeReg s rd (alu op a o s.cpsr).result with cpsr := flagsIf sf (alu op a o s.cpsr) s.cpsr } = .next t) := by
  unfold dataProcess at h
  simp only at h
  split at h
  · rename_i hrd
    split at h
    · rename_i hs
      exact .inl ⟨hrd, hs, h⟩
    · rename_i hs
      exact .inr (.inl ⟨hrd, by simpa using hs, (branchAligned_next h).2⟩)
  · rename_i hrd
    exact .inr (.inr ⟨hrd, h⟩)

theorem finishMul_next {sf : Bool} {rd : Reg} {v : Word} {s t : State} (h : finishMul sf rd v s = .next t) :
    t.regs = (writeReg s rd v).regs ∧
    t.cpsr = if sf then { setNZ v s.cpsr with c := Config.freeBit s.draws } else s.cpsr := by
  unfold finishMul at h
  simp only at h
  split at h
  · rename_i hs
    have hr := advance_regs h
    have hc := advance_cpsr h
    exact ⟨hr, hc.trans (by simp [hs])⟩
  · rename_i hs
    exact ⟨advance_regs h, (advance_cpsr h).trans (by simp [hs])⟩

theorem finishMulLong_next {sf : Bool} {hi lo : Reg} {v : BitVec 64} {s t : State} (h : finishMulLong sf hi lo v s = .next t) :
    t.regs = (writeReg (writeReg s lo (v.extractLsb' 0 32)) hi (v.extractLsb' 32 32)).regs ∧
    t.cpsr = if sf then { setNZ64 v s.cpsr with c := Config.freeBit s.draws, v := Config.freeBit (s.draws + 1) } else s.cpsr := by
  unfold finishMulLong at h
  simp only at h
  split at h
  · rename_i hs
    have hr := advance_regs h
    have hc := advance_cpsr h
    exact ⟨hr, hc.trans (by simp [hs])⟩
  · rename_i hs
    exact ⟨advance_regs h, (advance_cpsr h).trans (by simp [hs])⟩

theorem readPsr_next {spsr : Bool} {rd : Reg} {s t : State} (h : readPsr spsr rd s = .next t) :
    ∃ w, advance (writeReg s rd w) = .next t := by
  unfold readPsr at h
  split at h
  · split at h
    · exact absurd h (by simp)
    · exact ⟨_, h⟩
  · exact ⟨_, h⟩

/-- An MSR changes the SPSRs alone, or gives the CPSR the bytes of its mask. -/
theorem writePsr_next {spsr : Bool} {mask : BitVec 4} {v : Word} {s t : State} (h : writePsr spsr mask v s = .next t) :
    (spsr = true ∧ ∃ q, advance { s with spsrs := q } = .next t) ∨
    (spsr = false ∧ ∃ p, Psr.ofWord (mergeBytes (msrMask s.cpsr.mode mask) s.cpsr.toWord v) = some p ∧
      advance { s with cpsr := p } = .next t) := by
  unfold writePsr writeSpsr writeCpsr at h
  cases spsr with
  | true =>
    simp only [if_true] at h
    split at h
    · exact absurd h (by simp)
    · exact .inl ⟨rfl, _, h⟩
  | false =>
    simp only [Bool.false_eq_true, if_false] at h
    split at h
    · exact absurd h (by simp)
    · split at h
      · exact absurd h (by simp)
      · rename_i p hp
        exact .inr ⟨rfl, p, hp, h⟩

/-! ## Transfers -/

/-- `u` is `s` with nothing changed but the registers of `w`, memory, the bus record, the pipeline, the hazard and the draws. -/
structure SameBut (w : Phys → Prop) (s u : State) : Prop where
  regs : ∀ p, ¬ w p → u.regs.get p = s.regs.get p
  pc : u.pc = s.pc
  cpsr : u.cpsr = s.cpsr
  spsrs : u.spsrs = s.spsrs
  env : u.env = s.env
  inputs : u.inputs = s.inputs

/-- The ways on from the state `u` a transfer leaves: a Data Abort, the next instruction, a branch, or, where the transfer may be
one, a return from exception. -/
inductive TransferEnd (ret : Prop) (u t : State) : Prop
  | aborted (h : t = takeDataAbort u)
  | advanced (h : advance u = .next t)
  | branched (a : Word) (h : t = branchTo a u)
  | returned (hr : ret) (a : Word) (h : exceptionReturn true a u = .next t)

/-! What each part of a transfer leaves as it was. -/

namespace SameBut

variable {w : Phys → Prop} {s u : State}

theorem refl (w : Phys → Prop) (s : State) : SameBut w s s := ⟨fun _ _ => rfl, rfl, rfl, rfl, rfl, rfl⟩

theorem record (h : SameBut w s u) (x : Access) : SameBut w s (record u x) :=
  ⟨h.regs, h.pc, h.cpsr, h.spsrs, h.env, h.inputs⟩

theorem drawWord (h : SameBut w s u) : SameBut w s (drawWord u).2 :=
  ⟨h.regs, h.pc, h.cpsr, h.spsrs, h.env, h.inputs⟩

theorem setUserLdm (h : SameBut w s u) (b : Bool) : SameBut w s { u with userLdm := b } :=
  ⟨h.regs, h.pc, h.cpsr, h.spsrs, h.env, h.inputs⟩

theorem readMem (h : SameBut w s u) (a : Word) (size : Size) : SameBut w s (readMem u a size).2 := by
  obtain ⟨d, hd⟩ := readMem_frame u a size
  rw [hd]
  exact ⟨h.regs, h.pc, h.cpsr, h.spsrs, h.env, h.inputs⟩

theorem writeMem (h : SameBut w s u) (a : Word) (size : Size) (v : Word) : SameBut w s (writeMem u a size v) := by
  obtain ⟨m, hm⟩ := writeMem_frame u a size v
  rw [hm]
  exact ⟨h.regs, h.pc, h.cpsr, h.spsrs, h.env, h.inputs⟩

theorem readWords (h : SameBut w s u) (l : List Word) : SameBut w s (readWords u l).2 := by
  obtain ⟨d, hd⟩ := readWords_frame u l
  rw [hd]
  exact ⟨h.regs, h.pc, h.cpsr, h.spsrs, h.env, h.inputs⟩

theorem recordReads (h : SameBut w s u) (l : List Word) : SameBut w s (recordReads u l) := by
  obtain ⟨b, hb⟩ := recordReads_frame u l
  rw [hb]
  exact ⟨h.regs, h.pc, h.cpsr, h.spsrs, h.env, h.inputs⟩

theorem storeWords (h : SameBut w s u) (l : List (Word × Word)) : SameBut w s (storeWords u l) := by
  obtain ⟨m, b, hb⟩ := storeWords_frame u l
  rw [hb]
  exact ⟨h.regs, h.pc, h.cpsr, h.spsrs, h.env, h.inputs⟩

theorem writeBank (h : SameBut w s u) {m : Mode} {r : Reg} (v : Word) (hw : ∀ p, bank m r = some p → w p) :
    SameBut w s (writeBank u m r v) where
  regs p hp := by rw [writeBank_get, if_neg (mt (hw p) hp), h.regs p hp]
  pc := by rw [writeBank_pc, h.pc]
  cpsr := by rw [writeBank_cpsr, h.cpsr]
  spsrs := by rw [writeBank_spsrs, h.spsrs]
  env := by rw [writeBank_env, h.env]
  inputs := by rw [writeBank_inputs, h.inputs]

theorem writeReg (h : SameBut w s u) {r : Reg} (v : Word) (hw : ∀ p, bank s.cpsr.mode r = some p → w p) :
    SameBut w s (writeReg u r v) :=
  h.writeBank v (h.cpsr ▸ hw)

theorem writeBack (h : SameBut w s u) {r : Reg} {v : Option Word}
    (hw : ∀ p, v.isSome = true → bank s.cpsr.mode r = some p → w p) : SameBut w s (writeBack u r v) := by
  cases v with
  | none => exact h
  | some v => exact h.writeReg v fun p => hw p rfl

theorem writeRegs (h : SameBut w s u) {m : Mode} {l : List (Reg × Word)} (hw : ∀ x ∈ l, ∀ p, bank m x.1 = some p → w p) :
    SameBut w s (writeRegs m u l) := by
  induction l generalizing u with
  | nil => exact h
  | cons x l ih => exact ih (h.writeBank x.2 (hw x List.mem_cons_self)) fun y hy => hw y (List.mem_cons_of_mem x hy)

theorem freeRegs (h : SameBut w s u) {m : Mode} {l : List Reg} (hw : ∀ r ∈ l, ∀ p, bank m r = some p → w p) :
    SameBut w s (freeRegs m u l) := by
  induction l generalizing u with
  | nil => exact h
  | cons r l ih => exact ih (h.drawWord.writeBank _ (hw r List.mem_cons_self)) fun q hq => hw q (List.mem_cons_of_mem r hq)

end SameBut

/-- A load changes Rd and the base it writes back. -/
theorem loadSingle_ends {k : LoadKind} {priv : Bool} {rn rd : Reg} {x : Address} {s t : State}
    (h : loadSingle k priv rn rd x s = .next t) :
    ∃ u, SameBut (fun p => bank s.cpsr.mode rd = some p ∨ (x.wb.isSome = true ∧ bank s.cpsr.mode rn = some p)) s u ∧
      TransferEnd False u t := by
  have start := (SameBut.refl (fun p => bank s.cpsr.mode rd = some p ∨ (x.wb.isSome = true ∧ bank s.cpsr.mode rn = some p))
    s).record (accessOf s x.addr k.size priv false false none)
  obtain ⟨-, ht⟩ | ⟨-, -, v, u, hu, h⟩ := loadSingle_next h
  · exact ⟨_, start.writeBack fun p hw hb => .inr ⟨hw, hb⟩, .aborted ht⟩
  · obtain rfl : _ = u := congrArg Prod.snd hu
    have read := (start.readMem x.addr k.size).writeBack (r := rn) (v := x.wb) fun p hw hb => .inr ⟨hw, hb⟩
    obtain ⟨-, ht⟩ | ⟨-, ha⟩ := loadTo_next h
    · exact ⟨_, read, .branched _ ht⟩
    · exact ⟨_, read.writeReg _ fun p => .inl, .advanced ha⟩

/-- A store changes no register but the base it writes back. -/
theorem storeSingle_ends {size : Size} {priv : Bool} {rn rd : Reg} {x : Address} {s t : State}
    (h : storeSingle size priv rn rd x s = .next t) :
    ∃ u, SameBut (fun p => x.wb.isSome = true ∧ bank s.cpsr.mode rn = some p) s u ∧ TransferEnd False u t := by
  obtain ⟨-, ht⟩ | ⟨-, -, ha⟩ := storeSingle_next h
  · exact ⟨_, ((SameBut.refl _ s).record _).writeBack fun p => And.intro, .aborted ht⟩
  · exact ⟨_, (((SameBut.refl _ s).record _).writeMem _ _ _).writeBack fun p => And.intro, .advanced ha⟩

/-- A swap changes Rd. -/
theorem swap_ends {size : Size} {rn rd rm : Reg} {s t : State} (h : swap size rn rd rm s = .next t) :
    ∃ u, SameBut (fun p => bank s.cpsr.mode rd = some p) s u ∧ TransferEnd False u t := by
  obtain ⟨-, ht⟩ | ⟨-, v, u, hu, ⟨-, ht⟩ | ⟨-, ha⟩⟩ := swap_next h
  · exact ⟨_, (SameBut.refl _ s).record _, .aborted ht⟩
  · obtain rfl : _ = u := congrArg Prod.snd hu
    exact ⟨_, (((SameBut.refl _ s).record _).readMem _ _).record _, .aborted ht⟩
  · obtain rfl : _ = u := congrArg Prod.snd hu
    exact ⟨_, (((((SameBut.refl _ s).record _).readMem _ _).record _).writeMem _ _ _).writeReg _ fun p => id, .advanced ha⟩

/-- The registers a block load into the bank of `m` may change: the listed ones but R15, and the base it writes back. -/
def loadedBy (s : State) (m : Mode) (rn : Reg) (regs : List Reg) (wb : Option Word) (p : Phys) : Prop :=
  (∃ r ∈ regs, r ≠ 15 ∧ bank m r = some p) ∨ (wb.isSome = true ∧ bank s.cpsr.mode rn = some p)

theorem endBlock_ends {w : Phys → Prop} {e : BlockEnd} {v : Option Word} {s u t : State} (hu : SameBut w s u)
    (h : endBlock e v u = .next t) : ∃ u', SameBut w s u' ∧ TransferEnd (e = .ret) u' t := by
  obtain ⟨-, ⟨-, ha⟩ | ⟨-, ha⟩⟩ | ⟨w, -, ⟨-, ht⟩ | ⟨-, ht⟩ | ⟨he, hr⟩ | ⟨-, ht⟩⟩ := endBlock_next h
  · exact ⟨_, hu.setUserLdm true, .advanced ha⟩
  · exact ⟨u, hu, .advanced ha⟩
  · exact ⟨u, hu, .branched _ ht⟩
  · exact ⟨u, hu, .branched _ ht⟩
  · exact ⟨u, hu, .returned he w hr⟩
  · exact ⟨u, hu, .branched _ ht⟩

/-- A block load changes the registers it may load and the base it writes back, aborted or not. -/
theorem blockLoad_ends {e : BlockEnd} {m : Mode} {rn : Reg} {regs : List Reg} {start : Word} {wb : Option Word} {s t : State}
    (h : blockLoad e m rn regs start wb s = .next t) :
    ∃ u, SameBut (loadedBy s m rn regs wb) s u ∧ TransferEnd (e = .ret) u t := by
  have reads := (SameBut.refl (loadedBy s m rn regs wb) s).recordReads (blockAddrs start regs.length)
  have base : ∀ p, wb.isSome = true → bank s.cpsr.mode rn = some p → loadedBy s m rn regs wb p :=
    fun p hw hb => .inr ⟨hw, hb⟩
  obtain ⟨-, ⟨-, ht⟩ | ⟨-, vs, u, hu, he⟩⟩ := blockLoad_next h
  · refine ⟨_, (reads.writeBack base).freeRegs fun r hr p hb => ?_, .aborted ht⟩
    obtain ⟨hmem, hr⟩ := List.mem_filter.mp hr
    exact .inl ⟨r, hmem, by simpa using (Bool.and_eq_true_iff.mp hr).1, hb⟩
  · obtain rfl : _ = u := congrArg Prod.snd hu
    refine endBlock_ends (((reads.readWords _).writeBack base).writeRegs fun x hx p hb => ?_) he
    obtain ⟨hmem, hx⟩ := List.mem_filter.mp hx
    exact .inl ⟨x.1, (List.of_mem_zip hmem).1, by simpa using hx, hb⟩

/-- A block store changes no register but the base it writes back. -/
theorem blockStore_ends {m : Mode} {rn : Reg} {regs : List Reg} {start : Word} {wb : Option Word} {s t : State}
    (h : blockStore m rn regs start wb s = .next t) :
    ∃ u, SameBut (fun p => wb.isSome = true ∧ bank s.cpsr.mode rn = some p) s u ∧ TransferEnd False u t := by
  obtain ⟨-, ⟨-, ht⟩ | ⟨-, ha⟩⟩ := blockStore_next h
  · exact ⟨_, ((SameBut.refl _ s).storeWords _).writeBack fun p => And.intro, .aborted ht⟩
  · exact ⟨_, ((SameBut.refl _ s).storeWords _).writeBack fun p => And.intro, .advanced ha⟩

end Sys2Proof.Machine
end

section
/-! The register frame: the registers an instruction names, and that it changes no other. -/

namespace Sys2Proof.Machine

open Sys2Proof.Claims

/-! ## The registers each shape of instruction names -/

@[simp] theorem mem_baseIf {wb : Bool} {rn r : Reg} : r ∈ baseIf wb rn ↔ wb = true ∧ r = rn := by
  cases wb <;> simp [baseIf]

@[simp] theorem address_wb_isSome (p u w : Bool) (base off : Word) : (address p u w base off).wb.isSome = (!p || w) := by
  cases p <;> cases w <;> rfl

theorem dpInstr_dest {op : AluOp} (hop : compares op = false) (c : Cond) (sf : Bool) (rn rd : Reg) (o : Op2) :
    destRegs (dpInstr op c sf rn rd o) = [rd] := by
  cases op <;> cases hop <;> cases o <;> rfl

theorem thumbDp_dest {s : State} {i : Instr} {op : AluOp} {rd : Reg} {a : Word} {o : Shifted}
    (hi : thumbDp s i = some (op, rd, a, o)) (hop : compares op = false) : destRegs i = [rd] := by
  cases i <;> cases hi <;> cases hop <;> rfl

theorem mulOf_dest {i : Instr} {sf : Bool} {rd : Reg} (hi : mulOf i = some (sf, rd)) : destRegs i = [rd] := by
  cases i <;> cases hi <;> rfl

theorem mulLongOf_dest {i : Instr} {sf : Bool} {hi lo : Reg} (hm : mulLongOf i = some (sf, hi, lo)) : destRegs i = [hi, lo] := by
  cases i <;> cases hm <;> rfl

theorem swapOf_dest {i : Instr} {size : Size} {rn rd rm : Reg} (hi : swapOf i = some (size, rn, rd, rm)) : destRegs i = [rd] := by
  cases i <;> cases hi <;> rfl

theorem highOf_dest {s : State} {i : Instr} {rd : Reg} {v : Word} (hi : highOf s i = some (rd, v)) : destRegs i = [rd] := by
  cases i <;> cases hi <;> rfl

theorem setRegOf_dest {i : Instr} {rd : Reg} (hi : setRegOf i = some rd) : destRegs i = [rd] := by
  cases i <;> cases hi <;> rfl

theorem isBranchLink_dest {i : Instr} (hi : isBranchLink i = true) : destRegs i = [14] := by
  cases i <;> cases hi <;> rfl

theorem loadOf_dest {s : State} {i : Instr} {x : Xfer} (hi : loadOf s i = some x) :
    x.rd ∈ destRegs i ∧ (x.loc.wb.isSome = true → x.rn ∈ destRegs i) := by
  cases i <;> simp only [loadOf, reduceCtorEq, Option.some.injEq] at hi <;> subst hi <;> simp +contextual [destRegs, thumbXfer]

theorem storeOf_dest {s : State} {i : Instr} {x : Xfer} (hi : storeOf s i = some x) (hw : x.loc.wb.isSome = true) :
    x.rn ∈ destRegs i := by
  cases i <;> simp only [storeOf, reduceCtorEq, Option.some.injEq] at hi <;> subst hi <;> simp_all [destRegs, thumbXfer]

/-- A block load names the registers it loads, of the current bank or of the User bank, and the base it writes back. -/
theorem blockLoadOf_dest {s : State} {i : Instr} {b : Block} (hi : blockLoadOf s i = some b) :
    (∀ r ∈ b.regs, r ≠ 15 → (b.mode = s.cpsr.mode ∧ r ∈ destRegs i) ∨ (b.mode = .usr ∧ r ∈ userDests i)) ∧
    (b.wb.isSome = true → b.rn ∈ destRegs i) := by
  cases i <;> cases hi
  case ldm c p u w rn list =>
    exact ⟨fun r hr _ => .inl ⟨rfl, List.mem_append_left _ hr⟩, by simp +contextual [armBlock, destRegs]⟩
  case ldmRet c p u w rn list =>
    exact ⟨fun r hr _ => .inl ⟨rfl, List.mem_append_left _ hr⟩, by simp +contextual [armBlock, destRegs]⟩
  case ldmUser c p u w rn list => exact ⟨fun r hr _ => .inr ⟨rfl, hr⟩, nofun⟩
  case tPop r list =>
    refine ⟨fun q hq hpc => .inl ⟨rfl, ?_⟩, by simp [upBlock, destRegs]⟩
    have : q ∈ regsOf list := by cases r <;> simp_all [upBlock]
    simp [destRegs, this]
  case tLdmia rb list => exact ⟨fun r hr _ => .inl ⟨rfl, List.mem_append_left _ hr⟩, by simp [upBlock, destRegs]⟩

theorem blockStoreOf_dest {s : State} {i : Instr} {b : Block} (hi : blockStoreOf s i = some b) (hw : b.wb.isSome = true) :
    b.rn ∈ destRegs i := by
  cases i <;> cases hi <;> simp_all [armBlock, userBlock, upBlock, destRegs]

/-! ## The frame -/

/-- What it is that an instruction may not write a register. -/
theorem mayWrite_eq_false {i : Instr} {m : Mode} {p : Phys} :
    mayWrite i m p = false ↔ (∀ r ∈ destRegs i, bank m r ≠ some p) ∧ (∀ r ∈ userDests i, bank .usr r ≠ some p) ∧
      (∀ e, trapOf i = some e → lrOf e.mode ≠ p) := by
  unfold mayWrite
  cases trapOf i <;> simp [and_assoc]

/-- A Data Abort from a state with the pc and the CPSR of `s`. -/
theorem tookDataAbort {s u : State} (hpc : u.pc = s.pc) (hc : u.cpsr = s.cpsr) : TookDataAbort s (takeDataAbort u) := by
  refine ⟨?_, ?_, rfl, ?_⟩
  · simp [takeDataAbort, Exc.mode, lrOf, Regs.set, hpc]
  · simp [takeDataAbort, Exc.mode, Spsrs.set, hc]
  · simp [takeDataAbort, entryPsr, Exc.mode, hc]

/-- A register that a transfer does not change keeps its value, but for R14_abt where the transfer was aborted. -/
theorem TransferEnd.regs {w : Phys → Prop} {ret : Prop} {s u t : State} (hu : SameBut w s u) (ht : TransferEnd ret u t)
    {p : Phys} (hp : ¬ w p) : t.regs.get p = s.regs.get p ∨ (p = .r14Abt ∧ TookDataAbort s t) := by
  cases ht with
  | aborted h =>
    subst h
    by_cases hl : p = .r14Abt
    · exact .inr ⟨hl, tookDataAbort hu.pc hu.cpsr⟩
    · exact .inl ((Regs.get_set_ne _ _ hl).trans (hu.regs p hp))
  | advanced h => exact .inl (by rw [advance_regs h, hu.regs p hp])
  | branched a h => exact .inl (by rw [h, branchTo_regs, hu.regs p hp])
  | returned _ a h => exact .inl (by rw [exceptionReturn_regs h, hu.regs p hp])

/-- The same for an instruction that makes data accesses, as the frame states it. -/
theorem regs_of_transfer {w : Phys → Prop} {ret : Prop} {i : Instr} {s t : State} {p : Phys} (ha : accesses i s = true)
    (hw : ¬ w p) (h : ∃ u, SameBut w s u ∧ TransferEnd ret u t) :
    t.regs.get p = s.regs.get p ∨ (p = .r14Abt ∧ accesses i s = true ∧ TookDataAbort s t) := by
  obtain ⟨u, hsame, hend⟩ := h
  exact (hend.regs hsame hw).imp_right fun ⟨hl, h⟩ => ⟨hl, ha, h⟩

theorem writeReg_get_ne {s : State} {r : Reg} (v : Word) {p : Phys} (h : bank s.cpsr.mode r ≠ some p) :
    (writeReg s r v).regs.get p = s.regs.get p := by
  rw [writeReg_get, if_neg h]

theorem dataProcess_regs {op : AluOp} {sf : Bool} {a : Word} {rd : Reg} {o : Shifted} {s t : State}
    (h : dataProcess op sf a rd o s = .next t) {p : Phys} (hp : bank s.cpsr.mode rd ≠ some p) :
    t.regs.get p = s.regs.get p := by
  obtain ⟨-, -, hr⟩ | ⟨-, -, rfl⟩ | ⟨-, ha⟩ := dataProcess_next h
  · rw [exceptionReturn_regs hr]
  · rfl
  · rw [advance_regs ha]
    exact writeReg_get_ne _ hp

theorem writePsr_regs {spsr : Bool} {mask : BitVec 4} {v : Word} {s t : State} (h : writePsr spsr mask v s = .next t) :
    t.regs = s.regs := by
  obtain ⟨-, q, ha⟩ | ⟨-, p, -, ha⟩ := writePsr_next h <;> exact (advance_regs ha :)

/-- An effect keeps every register the instruction does not name, but for R14_abt where it took a Data Abort. -/
theorem Effect.regs {s t : State} {i : Instr} {r : Result} (he : Effect s i r) (hr : r = .next t) {p : Phys}
    (hp : mayWrite i s.cpsr.mode p = false) :
    t.regs.get p = s.regs.get p ∨ (p = .r14Abt ∧ accesses i s = true ∧ TookDataAbort s t) := by
  obtain ⟨hd, hu, ht⟩ := mayWrite_eq_false.mp hp
  cases he with
  | dataProcess op c sf rn rd o hop => exact .inl (dataProcess_regs hr (hd _ (by simp [dpInstr_dest hop])))
  | compare => exact .inl (by rw [advance_regs hr])
  | thumbAlu hi hop =>
    left
    rw [advance_regs hr]
    exact writeReg_get_ne _ (hd _ (by simp [thumbDp_dest hi hop]))
  | thumbCompare => exact .inl (by rw [advance_regs hr])
  | readPsr c spsr rd =>
    obtain ⟨w, ha⟩ := readPsr_next hr
    exact .inl (by rw [advance_regs ha, writeReg_get_ne _ (hd _ (by simp [destRegs]))])
  | writePsr => exact .inl (by rw [writePsr_regs hr])
  | multiply v hi =>
    left
    rw [(finishMul_next hr).1, writeReg_get_ne _ (hd _ (by simp [mulOf_dest hi]))]
  | multiplyLong v hm =>
    left
    rw [(finishMulLong_next hr).1, writeReg_get_ne _ (by simpa using hd _ (by simp [mulLongOf_dest hm])),
      writeReg_get_ne _ (hd _ (by simp [mulLongOf_dest hm]))]
  | load hi =>
    obtain ⟨hrd, hrn⟩ := loadOf_dest hi
    refine regs_of_transfer (by simp [accesses, hi]) ?_ (loadSingle_ends hr)
    rintro (h | ⟨hw, h⟩)
    · exact hd _ hrd h
    · exact hd _ (hrn hw) h
  | store hi =>
    exact regs_of_transfer (by simp [accesses, hi]) (fun ⟨hw, h⟩ => hd _ (storeOf_dest hi hw) h) (storeSingle_ends hr)
  | swap hi => exact regs_of_transfer (by simp [accesses, hi]) (hd _ (by simp [swapOf_dest hi])) (swap_ends hr)
  | blockLoad why hi =>
    split at hr
    · obtain ⟨hregs, hrn⟩ := blockLoadOf_dest hi
      refine regs_of_transfer (by simp [accesses, hi]) ?_ (blockLoad_ends hr)
      rintro (⟨q, hq, hpc, h⟩ | ⟨hw, h⟩)
      · obtain ⟨hm, hmem⟩ | ⟨hm, hmem⟩ := hregs q hq hpc
        · exact hd q hmem (hm ▸ h)
        · exact hu q hmem (hm ▸ h)
      · exact hd _ (hrn hw) h
    · cases hr
  | blockStore why hi =>
    split at hr
    · exact regs_of_transfer (by simp [accesses, hi]) (fun ⟨hw, h⟩ => hd _ (blockStoreOf_dest hi hw) h) (blockStore_ends hr)
    · cases hr
  | trap hi =>
    cases hr
    exact .inl (Regs.get_set_ne _ _ (ht _ hi).symm)
  | exchange => exact .inl (by rw [branchExchange_regs hr])
  | high hi =>
    obtain rfl | ha := writeHigh_next hr
    · exact .inl rfl
    · exact .inl (by rw [advance_regs ha, writeReg_get_ne _ (hd _ (by simp [highOf_dest hi]))])
  | setReg v hi => exact .inl (by rw [advance_regs hr, writeReg_get_ne _ (hd _ (by simp [setRegOf_dest hi]))])
  | condBranch =>
    obtain rfl | ha := branchIf_next hr
    · exact .inl rfl
    · exact .inl (by rw [advance_regs ha])
  | branch =>
    cases hr
    exact .inl rfl
  | branchLink a v hi =>
    cases hr
    exact .inl (writeReg_get_ne _ (hd _ (by simp [isBranchLink_dest hi])))

/-- Settles O50: an instruction that only advances changes no register, and each effect changes the ones it names. -/
theorem frameRegisters : Obligations.FrameRegisters := by
  intro i s t p h hp
  obtain ha | he := exec_next h
  · exact .inl (by rw [advance_regs ha])
  · exact he.regs rfl hp

end Sys2Proof.Machine
end

section
/-! The CPSR frame: the flags an instruction's rule names, and that it changes no other part of the CPSR. -/

namespace Sys2Proof.Machine

open Sys2Proof.Claims

/-! ## The bits of the status register word -/

theorem Psr.toWord_n (p : Psr) : p.toWord.getLsbD 31 = p.n := by
  simp only [Psr.toWord, BitVec.getLsbD_append]
  simp

theorem Psr.toWord_z (p : Psr) : p.toWord.getLsbD 30 = p.z := by
  simp only [Psr.toWord, BitVec.getLsbD_append]
  simp

theorem Psr.toWord_c (p : Psr) : p.toWord.getLsbD 29 = p.c := by
  simp only [Psr.toWord, BitVec.getLsbD_append]
  simp

theorem Psr.toWord_v (p : Psr) : p.toWord.getLsbD 28 = p.v := by
  simp only [Psr.toWord, BitVec.getLsbD_append]
  simp

/-- The flags of a word read as a PSR are its bits [31:28]. -/
theorem Psr.ofWord_flags {w : Word} {p : Psr} (h : Psr.ofWord w = some p) :
    p.n = w.getLsbD 31 ∧ p.z = w.getLsbD 30 ∧ p.c = w.getLsbD 29 ∧ p.v = w.getLsbD 28 := by
  unfold Psr.ofWord at h
  split at h
  · cases h
  · cases h
    exact ⟨rfl, rfl, rfl, rfl⟩

/-- A mask without bit 3 keeps bits [31:24]. -/
theorem mergeBytes_high {mask : BitVec 4} (old new : Word) (hm : mask.getLsbD 3 = false) {k : Nat} (hk : 24 ≤ k) (hk' : k < 32) :
    (mergeBytes mask old new).getLsbD k = old.getLsbD k := by
  simp only [mergeBytes, hm, Bool.false_eq_true, if_false]
  iterate 3 rw [BitVec.getLsbD_append, if_neg (by omega)]
  rw [BitVec.getLsbD_extractLsb']
  have hidx : 24 + (k - 8 - 8 - 8) = k := by omega
  rw [hidx, decide_eq_true (by omega), Bool.true_and]

/-- A PSR merged from another without its top byte has that one's flags. -/
theorem Psr.flags_of_mergeBytes {mask : BitVec 4} {p q : Psr} {v : Word} (hm : mask.getLsbD 3 = false)
    (h : Psr.ofWord (mergeBytes mask q.toWord v) = some p) : p.n = q.n ∧ p.z = q.z ∧ p.c = q.c ∧ p.v = q.v := by
  obtain ⟨hn, hz, hc, hv⟩ := Psr.ofWord_flags h
  have hb {k : Nat} := mergeBytes_high (k := k) q.toWord v hm
  rw [hn, hz, hc, hv, hb (by decide) (by decide), hb (by decide) (by decide), hb (by decide) (by decide),
    hb (by decide) (by decide), Psr.toWord_n, Psr.toWord_z, Psr.toWord_c, Psr.toWord_v]
  exact ⟨rfl, rfl, rfl, rfl⟩

theorem msrMask_flags (m : Mode) (mask : BitVec 4) : (msrMask m mask).getLsbD 3 = mask.getLsbD 3 := by
  unfold msrMask
  split <;> simp

/-! ## The flags each shape of instruction writes -/

/-- The flags of an operation; `keepsC` says that the second operand's carry-out is C. -/
def opFlags (op : AluOp) (keepsC : Bool) : FlagSet :=
  match op with
  | .and | .eor | .orr | .mov | .bic | .mvn | .tst | .teq => logicalFlags keepsC
  | _ => flagsNZCV

/-- The operand form's carry-out is C whatever the operand (41_arm_data_processing R202, R203). -/
def keepsC : Op2 → Bool
  | .imm o => o.rotate == 0
  | .shImm o => plainShift o
  | .shReg _ => false

theorem carry_of_keepsC {o : Op2} (s : State) (h : keepsC o = true) : (o.value s).carry = s.cpsr.c := by
  cases o with
  | imm o =>
    have h0 : o.rotate = 0 := by simpa [keepsC] using h
    exact if_pos h0
  | shImm o =>
    obtain ⟨amount, type, rm⟩ := o
    obtain ⟨rfl, rfl⟩ : amount = 0 ∧ type = .lsl := by simpa [keepsC, plainShift] using h
    rfl
  | shReg o => cases h

theorem flagsWritten_dpInstr {op : AluOp} (hop : compares op = false) (c : Cond) (sf : Bool) (rn rd : Reg) (o : Op2) :
    flagsWritten (dpInstr op c sf rn rd o) = dpFlagSet sf rd (opFlags op (keepsC o)) := by
  cases op <;> cases hop <;> cases o <;> rfl

theorem flagsWritten_compare {op : AluOp} (hop : compares op = true) (c : Cond) (sf : Bool) (rn rd : Reg) (o : Op2) :
    flagsWritten (dpInstr op c sf rn rd o) = opFlags op (keepsC o) := by
  cases op <;> cases hop <;> cases o <;> rfl

theorem isReturn_dpInstr {op : AluOp} (hop : compares op = false) (c : Cond) (rn : Reg) (o : Op2) :
    isReturn (dpInstr op c true rn 15 o) = true := by
  cases op <;> cases hop <;> cases o <;> rfl

theorem flagsWritten_thumbDp {s : State} {i : Instr} {op : AluOp} {rd : Reg} {a : Word} {o : Shifted}
    (hi : thumbDp s i = some (op, rd, a, o)) :
    ∃ k, flagsWritten i = opFlags op k ∧ (k = true → o.carry = s.cpsr.c) := by
  cases i <;> cases hi
  case tLslImm imm rs rd =>
    refine ⟨imm == 0, rfl, fun h => ?_⟩
    obtain rfl : imm = 0 := by simpa using h
    rfl
  case tMovImm | tAnd | tEor | tTst | tOrr | tBic | tMvn => exact ⟨true, rfl, fun _ => rfl⟩
  all_goals exact ⟨false, rfl, nofun⟩

theorem flagsWritten_mulOf {i : Instr} {sf : Bool} {rd : Reg} (hi : mulOf i = some (sf, rd)) :
    flagsWritten i = if sf then flagsNZC else noFlags := by
  cases i <;> cases hi <;> rfl

theorem flagsWritten_mulLongOf {i : Instr} {sf : Bool} {hi lo : Reg} (hm : mulLongOf i = some (sf, hi, lo)) :
    flagsWritten i = if sf then flagsNZCV else noFlags := by
  cases i <;> cases hm <;> rfl

theorem flagsWritten_msrOf {s : State} {i : Instr} {mask : BitVec 4} {v : Word} (hi : msrOf s i = some (false, mask, v)) :
    flagsWritten i = (if mask.getLsbD 3 then flagsNZCV else noFlags) ∧ isMsrCpsr i = true := by
  cases i <;> cases hi <;> exact ⟨rfl, rfl⟩

/-- Of the block loads only LDM with ^ and R15 ends in a return. -/
theorem blockEndOf_ret {i : Instr} (h : blockEndOf i = .ret) : flagsWritten i = flagsNZCV ∧ isReturn i = true := by
  cases i <;> cases h
  exact ⟨rfl, rfl⟩

theorem isBx_of_bxOf {s : State} {i : Instr} {a : Word} (hi : bxOf s i = some a) : isBx i = true := by
  cases i <;> cases hi <;> rfl

/-! ## The frame -/

/-- What an instruction but BX keeps of the CPSR: the flags its rule does not name, and, for most instructions, the rest. -/
structure CpsrFrame (i : Instr) (s t : State) : Prop where
  n : (flagsWritten i).n = false → t.cpsr.n = s.cpsr.n
  z : (flagsWritten i).z = false → t.cpsr.z = s.cpsr.z
  c : (flagsWritten i).c = false → t.cpsr.c = s.cpsr.c
  v : (flagsWritten i).v = false → t.cpsr.v = s.cpsr.v
  control : isBx i = false → isMsrCpsr i = false → isReturn i = false → trapOf i = none →
    sameControl t.cpsr s.cpsr = true ∨ (accesses i s = true ∧ TookDataAbort s t)

namespace CpsrFrame

variable {i : Instr} {s t : State}

theorem of_same (h : t.cpsr = s.cpsr) : CpsrFrame i s t := by
  constructor <;> simp [h, sameControl]

theorem of_abort (ha : accesses i s = true) (h : TookDataAbort s t) : CpsrFrame i s t := by
  have hc : t.cpsr = { s.cpsr with mode := .abt, t := false, i := true } := h.2.2.2
  refine ⟨?_, ?_, ?_, ?_, fun _ _ _ _ => .inr ⟨ha, h⟩⟩ <;> simp [hc]

theorem of_return (hf : flagsWritten i = flagsNZCV) (hr : isReturn i = true) : CpsrFrame i s t := by
  constructor <;> simp [hf, flagsNZCV, hr]

/-- The flags of an operation, the rest of the CPSR as it was. -/
theorem of_alu {op : AluOp} {k : Bool} {a : Word} {o : Shifted} (hf : flagsWritten i = opFlags op k)
    (hk : k = true → o.carry = s.cpsr.c) (h : t.cpsr = flagsOf (alu op a o s.cpsr) s.cpsr) : CpsrFrame i s t := by
  have hc : (opFlags op k).c = false → (alu op a o s.cpsr).carry = s.cpsr.c := by
    cases op <;> cases k <;> simp_all [opFlags, logicalFlags, flagsNZ, flagsNZC, flagsNZCV, alu]
  have hv : (opFlags op k).v = false → (alu op a o s.cpsr).ovf = s.cpsr.v := by
    cases op <;> simp [opFlags, flagsNZCV, alu]
  have hnz : (opFlags op k).n = true ∧ (opFlags op k).z = true := by
    cases op <;> cases k <;> exact ⟨rfl, rfl⟩
  refine ⟨?_, ?_, ?_, ?_, fun _ _ _ _ => .inl ?_⟩ <;> simp_all [flagsOf, sameControl]

/-- A transfer that does not return keeps the CPSR, or takes a Data Abort. -/
theorem of_transfer {w : Phys → Prop} {ret : Prop} (ha : accesses i s = true)
    (hr : ret → flagsWritten i = flagsNZCV ∧ isReturn i = true) (h : ∃ u, SameBut w s u ∧ TransferEnd ret u t) :
    CpsrFrame i s t := by
  obtain ⟨u, hu, ht⟩ := h
  cases ht with
  | aborted h => exact of_abort ha (h ▸ tookDataAbort hu.pc hu.cpsr)
  | advanced h => exact of_same ((advance_cpsr h).trans hu.cpsr)
  | branched a h => exact of_same (h ▸ hu.cpsr)
  | returned h _ _ => exact of_return (hr h).1 (hr h).2

end CpsrFrame

theorem dataProcess_cpsrFrame {op : AluOp} (hop : compares op = false) {c : Cond} {sf : Bool} {rn rd : Reg} {o : Op2} {s t : State}
    (h : dataProcess op sf (readReg s rn) rd (o.value s) s = .next t) : CpsrFrame (dpInstr op c sf rn rd o) s t := by
  have hf := flagsWritten_dpInstr hop c sf rn rd o
  obtain ⟨rfl, rfl, -⟩ | ⟨-, -, rfl⟩ | ⟨hrd, ha⟩ := dataProcess_next h
  · exact .of_return hf (isReturn_dpInstr hop c rn o)
  · exact .of_same rfl
  · have hc := advance_cpsr ha
    cases sf with
    | false => exact .of_same hc
    | true => exact .of_alu (hf.trans (if_neg hrd)) (carry_of_keepsC s) hc

theorem writePsr_cpsrFrame {i : Instr} {spsr : Bool} {mask : BitVec 4} {v : Word} {s t : State}
    (hi : msrOf s i = some (spsr, mask, v)) (h : writePsr spsr mask v s = .next t) : CpsrFrame i s t := by
  obtain ⟨-, q, ha⟩ | ⟨rfl, p, hp, ha⟩ := writePsr_next h
  · have hc := advance_cpsr ha
    exact .of_same hc
  · obtain ⟨hf, hmsr⟩ := flagsWritten_msrOf hi
    have hc : t.cpsr = p := advance_cpsr ha
    cases hm : mask.getLsbD 3 with
    | true => constructor <;> simp [hf, hm, flagsNZCV, hmsr]
    | false =>
      obtain ⟨hn, hz, hcf, hv⟩ := Psr.flags_of_mergeBytes ((msrMask_flags s.cpsr.mode mask).trans hm) hp
      constructor <;> simp [hc, hn, hz, hcf, hv, hmsr]

theorem finishMul_cpsrFrame {i : Instr} {sf : Bool} {rd : Reg} {v : Word} {s t : State} (hi : mulOf i = some (sf, rd))
    (h : finishMul sf rd v s = .next t) : CpsrFrame i s t := by
  obtain ⟨-, hc⟩ := finishMul_next h
  cases sf with
  | false => exact .of_same hc
  | true =>
    have hf := flagsWritten_mulOf hi
    constructor <;> simp [hc, hf, flagsNZC, setNZ, sameControl]

theorem finishMulLong_cpsrFrame {i : Instr} {sf : Bool} {hi lo : Reg} {v : BitVec 64} {s t : State}
    (hm : mulLongOf i = some (sf, hi, lo)) (h : finishMulLong sf hi lo v s = .next t) : CpsrFrame i s t := by
  obtain ⟨-, hc⟩ := finishMulLong_next h
  cases sf with
  | false => exact .of_same hc
  | true =>
    have hf := flagsWritten_mulLongOf hm
    constructor <;> simp [hc, hf, flagsNZCV, setNZ64, sameControl]

/-- An effect keeps of the CPSR what the instruction does not write. -/
theorem Effect.cpsr {s t : State} {i : Instr} {r : Result} (he : Effect s i r) (hr : r = .next t) : CpsrFrame i s t := by
  cases he with
  | dataProcess op c sf rn rd o hop => exact dataProcess_cpsrFrame hop hr
  | compare op c sf rn rd o hop => exact .of_alu (flagsWritten_compare hop c sf rn rd o) (carry_of_keepsC s) (advance_cpsr hr)
  | thumbAlu hi =>
    obtain ⟨k, hf, hk⟩ := flagsWritten_thumbDp hi
    exact .of_alu hf hk (advance_cpsr hr)
  | thumbCompare hi =>
    obtain ⟨k, hf, hk⟩ := flagsWritten_thumbDp hi
    exact .of_alu hf hk (advance_cpsr hr)
  | readPsr c spsr rd =>
    obtain ⟨w, ha⟩ := readPsr_next hr
    exact .of_same (by rw [advance_cpsr ha, writeReg_cpsr])
  | writePsr hi => exact writePsr_cpsrFrame hi hr
  | multiply v hi => exact finishMul_cpsrFrame hi hr
  | multiplyLong v hm => exact finishMulLong_cpsrFrame hm hr
  | load hi => exact .of_transfer (by simp [accesses, hi]) False.elim (loadSingle_ends hr)
  | store hi => exact .of_transfer (by simp [accesses, hi]) False.elim (storeSingle_ends hr)
  | swap hi => exact .of_transfer (by simp [accesses, hi]) False.elim (swap_ends hr)
  | blockLoad why hi =>
    split at hr
    · exact .of_transfer (by simp [accesses, hi]) blockEndOf_ret (blockLoad_ends hr)
    · cases hr
  | blockStore why hi =>
    split at hr
    · exact .of_transfer (by simp [accesses, hi]) False.elim (blockStore_ends hr)
    · cases hr
  | trap hi =>
    cases hr
    constructor <;> simp [takeTrap, entryPsr, hi]
  | exchange hi =>
    have hc := branchExchange_cpsr hr
    constructor <;> rw [hc] <;> simp [isBx_of_bxOf hi]
  | high =>
    obtain rfl | ha := writeHigh_next hr
    · exact .of_same rfl
    · exact .of_same (by rw [advance_cpsr ha, writeReg_cpsr])
  | setReg => exact .of_same (by rw [advance_cpsr hr, writeReg_cpsr])
  | condBranch =>
    obtain rfl | ha := branchIf_next hr
    · exact .of_same rfl
    · exact .of_same (advance_cpsr ha)
  | branch =>
    cases hr
    exact .of_same rfl
  | branchLink =>
    cases hr
    exact .of_same (by rw [branchTo_cpsr, writeReg_cpsr])

/-- BX changes T alone, or only advances. -/
theorem exec_bx_cpsr {i : Instr} (hi : isBx i = true) {s t : State} (h : exec i s = .next t) :
    t.cpsr = { s.cpsr with t := t.cpsr.t } := by
  cases i <;> cases hi
  case bx c rn =>
    obtain ⟨-, -, h⟩ | ⟨-, ha⟩ := conditional_next h
    · exact branchExchange_cpsr h
    · rw [advance_cpsr ha]
  case tBx rs => exact branchExchange_cpsr h

/-- Settles O51: an instruction that only advances keeps the CPSR, and each effect keeps what the instruction does not write. -/
theorem frameCpsr : Obligations.FrameCpsr := by
  intro i s t h
  have hframe : CpsrFrame i s t := by
    obtain ha | he := exec_next h
    · exact .of_same (advance_cpsr ha)
    · exact he.cpsr rfl
  obtain ⟨hn, hz, hc, hv, hcontrol⟩ := hframe
  exact ⟨hn, hz, hc, hv, hcontrol, fun hi => exec_bx_cpsr hi h⟩

end Sys2Proof.Machine
end

section
/-! ARM instructions: a failed condition, the adder, data processing with Rd not R15, and the step that runs an instruction. -/

namespace Sys2Proof.Machine

open Sys2Proof.Claims

/-! ## A condition that fails -/

/-- Whatever its effect and its restrictions, an instruction whose condition fails only advances. -/
theorem exec_of_condition_failed {i : Instr} {s : State} (hc : condPassed (condOf i) s.cpsr = false) : exec i s = advance s := by
  obtain ⟨r, -, hx⟩ := exec_effect i s
  rw [hx, conditional_fail hc]

theorem instrBytes_arm {s : State} (ht : s.cpsr.t = false) : instrBytes s = 4 := by
  simp [instrBytes, ht]

/-- Settles O7: behind a failed condition every effect is skipped, and advancing in ARM state adds 4 to the pc. -/
theorem failedCondition : Obligations.FailedCondition := by
  intro i s _ ht hc
  rw [exec_of_condition_failed hc]
  refine ⟨fun hroom => ?_, advance_of_no_room⟩
  rw [advance_of_room hroom, instrBytes_arm ht]

/-! ## The adder -/

theorem overflows_iff (x : Int) : overflows x = true ↔ x < -2 ^ 31 ∨ 2 ^ 31 - 1 < x := by
  simp only [overflows, Bool.or_eq_true, decide_eq_true_eq]
  omega

/-- Settles O8, by the machine's adder against plain arithmetic (`addWithCarry_ovf`, `addWithCarry_sub`). -/
theorem addWithCarryRule : Obligations.AddWithCarryRule := by
  intro a b cin
  refine ⟨?_, ?_, ?_, ?_, ?_, ?_⟩
  · exact BitVec.toNat_ofNat _ _
  · rw [addWithCarry_carry, decide_eq_true_eq]
  · rw [addWithCarry_ovf, overflows_iff]
  · simp [addWithCarry_sub, bit]
  · simp [addWithCarry_sub]
  · cases cin <;> simp [addWithCarry_sub, bit]

/-! ## Data processing -/

/-- Data processing with Rd not R15 writes the result and, with S = 1, the flags, and goes to the next instruction. -/
theorem dataProcess_to_register {op : AluOp} {sf : Bool} {a : Word} {rd : Reg} {o : Shifted} {s : State} (hrd : rd ≠ 15)
    (hroom : room s = true) :
    dataProcess op sf a rd o s = .next (past s { writeReg s rd (dpResult op a o.value s.cpsr.c) with
      cpsr := if sf then dpFlags op a o s.cpsr else s.cpsr }) := by
  have hflags : flagsIf sf (alu op a o s.cpsr) s.cpsr = if sf then dpFlags op a o s.cpsr else s.cpsr := by
    rw [flagsIf, flagsOf_alu]
  rw [dataProcess, if_neg hrd, hflags, alu_result]
  refine advance_past (writeReg_pc s rd _) ?_ hroom
  cases sf <;> rfl

theorem exec_dpInstr_to_register {op : AluOp} {c : Cond} {sf : Bool} {rn rd : Reg} {o : Op2} {s : State}
    (hop : compares op = false) (he : executes (dpInstr op c sf rn rd o) s = true) (hrd : rd ≠ 15) (hroom : room s = true) :
    exec (dpInstr op c sf rn rd o) s = .next (past s
      { writeReg s rd (dpResult op (readReg s rn) (o.value s).value s.cpsr.c) with
        cpsr := if sf then dpFlags op (readReg s rn) (o.value s) s.cpsr else s.cpsr }) := by
  rw [exec_dataProcess he hop, dataProcess_to_register hrd hroom]

theorem not_compares_of_logical {op : AluOp} (h : logical op = true) : compares op = false := by
  cases op <;> cases h <;> rfl

theorem not_compares_of_arithmetic {op : AluOp} (h : arithmetic op = true) : compares op = false := by
  cases op <;> cases h <;> rfl

/-- Settles O14: a logical operation is data processing that writes Rd. -/
theorem logicalOperations : Obligations.LogicalOperations :=
  fun _ _ _ _ _ _ _ hop => exec_dpInstr_to_register (not_compares_of_logical hop)

/-- Settles O15: an arithmetic operation is data processing that writes Rd. -/
theorem arithmeticOperations : Obligations.ArithmeticOperations :=
  fun _ _ _ _ _ _ _ hop => exec_dpInstr_to_register (not_compares_of_arithmetic hop)

/-- Settles O16: a compare advances from the state with the flags of its operation. -/
theorem comparisons : Obligations.Comparisons := by
  intro op c sf rn rd o s hop he hroom
  rw [exec_compare he hop, flagsOf_alu]
  exact advance_past (s := s) rfl rfl hroom

/-! ## The step that runs an instruction -/

/-- No exception comes first where each line is HIGH or masked. -/
theorem boundary_eq_none {x : Inputs} {s : State} :
    boundary x s = none ↔ x.nRESET = true ∧ (x.nFIQ || s.cpsr.f) = true ∧ (x.nIRQ || s.cpsr.i) = true := by
  unfold boundary
  cases x.nRESET <;> cases x.nFIQ <;> cases x.nIRQ <;> cases s.cpsr.f <;> cases s.cpsr.i <;> simp

/-- The fetch of a word that lies in memory and is unchanged since it was prefetched, if it was. -/
theorem fetchWord_unchanged {s : State} (hmem : isMemory s s.pc = true)
    (hpipe : s.pipe.first = none ∨ s.pipe.first = some (memRead s.env.bigEndian s.mem s.pc (fetchSize s))) :
    fetchWord s = (memRead s.env.bigEndian s.mem s.pc (fetchSize s), s) := by
  have hread : readMem s s.pc (fetchSize s) = (memRead s.env.bigEndian s.mem s.pc (fetchSize s), s) := by
    unfold readMem
    split
    · rename_i hd
      simp [isMemory, hd] at hmem
    · rfl
  obtain h | h := hpipe <;> simp [fetchWord, hread, h]

/-- A decoded word runs where the hazard after a User-bank LDM does not stop it. -/
theorem dispatch_run {hazard : Bool} {w : Word} {s : State} {i : Instr} (hdec : decodeFetched s.cpsr.t w = .ok i)
    (hh : hazard = false ∨ usesBanked i s.cpsr = false) : dispatch hazard w s = .run i (ready s) := by
  have hand : (hazard && usesBanked i s.cpsr) = false := by obtain h | h := hh <;> simp [h]
  simp [dispatch, hdec, hand]

/-- Settles O55: no exception comes first, so the step is the fetch at the pc, and the word fetched runs. -/
theorem stepRuns : Obligations.StepRuns := by
  rintro s i w hb hr hal hab hmem rfl hpipe hdec hh
  have hbound : boundary (lines s) (beginStep s) = none := boundary_eq_none.mpr ((boundary_eq_none (s := s)).mp hb)
  have halign : pcAligned (beginStep s) = true := hal
  have habort : fetchAborts (beginStep s) = false := hab
  have hfetch : fetch s = dispatch s.userLdm (fetchWord (record (beginStep s) (fetchAccess s))).1
      (fetchWord (record (beginStep s) (fetchAccess s))).2 := by
    rw [fetch, hbound]
    simp only [fetchAt, halign, habort, Bool.not_true, Bool.false_eq_true, if_false]
    rfl
  have hrun : dispatch s.userLdm (fetchWord (record (beginStep s) (fetchAccess s))).1
      (fetchWord (record (beginStep s) (fetchAccess s))).2 = .run i (ready (record (beginStep s) (fetchAccess s))) := by
    rw [fetchWord_unchanged (s := record (beginStep s) (fetchAccess s)) hmem hpipe]
    exact dispatch_run hdec hh
  rw [step_whole hr, wholeStep, hfetch, hrun]

end Sys2Proof.Machine
end

section
/-! The status register as a word: which bit is which field, and that reading it back loses nothing (10_state R36). -/

namespace Sys2Proof.Machine

theorem Psr.toWord_reserved (p : Psr) : p.toWord.extractLsb' 8 20 = p.reserved := by
  apply BitVec.eq_of_getLsbD_eq
  intro k hk
  simp only [Psr.toWord, BitVec.getLsbD_extractLsb', BitVec.getLsbD_append]
  interval_cases k <;> simp

theorem Psr.toWord_i (p : Psr) : p.toWord.getLsbD 7 = p.i := by
  simp only [Psr.toWord, BitVec.getLsbD_append]
  simp

theorem Psr.toWord_f (p : Psr) : p.toWord.getLsbD 6 = p.f := by
  simp only [Psr.toWord, BitVec.getLsbD_append]
  simp

theorem Psr.toWord_t (p : Psr) : p.toWord.getLsbD 5 = p.t := by
  simp only [Psr.toWord, BitVec.getLsbD_append]
  simp

theorem Psr.toWord_mode (p : Psr) : p.toWord.extractLsb' 0 5 = p.mode.bits := by
  simp only [Psr.toWord]
  exact BitVec.extractLsb'_append_eq_right ..

theorem Mode.ofBits_bits (m : Mode) : Mode.ofBits m.bits = some m := by
  cases m <;> rfl

theorem Mode.bits_of_ofBits : ∀ {b : BitVec 5} {m : Mode}, Mode.ofBits b = some m → m.bits = b := by
  intro b m
  revert b
  cases m <;> decide

/-- What a word read as a PSR gives: its mode bits are a mode's, and every field is its bits. -/
theorem Psr.ofWord_eq_some {w : Word} {q : Psr} (h : Psr.ofWord w = some q) :
    q.mode.bits = w.extractLsb' 0 5 ∧
    q = { n := w.getLsbD 31, z := w.getLsbD 30, c := w.getLsbD 29, v := w.getLsbD 28, reserved := w.extractLsb' 8 20,
          i := w.getLsbD 7, f := w.getLsbD 6, t := w.getLsbD 5, mode := q.mode } := by
  unfold Psr.ofWord at h
  split at h
  · cases h
  · rename_i m hm
    cases h
    exact ⟨Mode.bits_of_ofBits hm, rfl⟩

theorem Psr.ofWord_toWord (p : Psr) : Psr.ofWord p.toWord = some p := by
  simp only [Psr.ofWord, toWord_mode, Mode.ofBits_bits, toWord_n, toWord_z, toWord_c, toWord_v, toWord_reserved, toWord_i,
    toWord_f, toWord_t]

/-- A word read as a PSR is written out as itself. -/
theorem Psr.toWord_of_ofWord {w : Word} {q : Psr} (h : Psr.ofWord w = some q) : q.toWord = w := by
  obtain ⟨hm, hq⟩ := ofWord_eq_some h
  apply BitVec.eq_of_getLsbD_eq
  intro k hk
  rw [hq]
  simp only [Psr.toWord, hm, BitVec.getLsbD_append]
  interval_cases k <;> simp

/-- Settles O19, field by field (`Psr.toWord_n` and its companions) and by the two round trips. -/
theorem cpsrLayout : Obligations.CpsrLayout := fun p =>
  ⟨p.toWord_n, p.toWord_z, p.toWord_c, p.toWord_v, p.toWord_reserved, p.toWord_i, p.toWord_f, p.toWord_t, p.toWord_mode,
    p.ofWord_toWord, fun _ _ => Psr.toWord_of_ofWord⟩

end Sys2Proof.Machine
end

section
/-! How an instruction ends: everything a next state of exec can be, as far as the pc and the status registers go. -/

namespace Sys2Proof.Machine

open Sys2Proof.Claims

theorem sameControl_iff {p q : Psr} :
    sameControl p q = true ↔ p.reserved = q.reserved ∧ p.i = q.i ∧ p.f = q.f ∧ p.t = q.t ∧ p.mode = q.mode := by
  simp only [sameControl, Bool.and_eq_true, beq_iff_eq, and_assoc]

@[simp] theorem sameControl_refl (p : Psr) : sameControl p p = true := sameControl_iff.mpr ⟨rfl, rfl, rfl, rfl, rfl⟩

@[simp] theorem sameControl_flagsOf (r : Sum) (p : Psr) : sameControl (flagsOf r p) p = true :=
  sameControl_iff.mpr ⟨rfl, rfl, rfl, rfl, rfl⟩

@[simp] theorem sameControl_flagsIf (sf : Bool) (r : Sum) (p : Psr) : sameControl (flagsIf sf r p) p = true := by
  cases sf
  · exact sameControl_refl p
  · exact sameControl_flagsOf r p

/-- `u` has the pc, the control bits of the CPSR, the SPSRs, the platform and the input lines of `s`: what an instruction carries
over to the state it ends from. -/
structure Carried (s u : State) : Prop where
  pc : u.pc = s.pc
  control : sameControl u.cpsr s.cpsr = true
  spsrs : u.spsrs = s.spsrs
  env : u.env = s.env
  inputs : u.inputs = s.inputs

theorem Carried.refl (s : State) : Carried s s := ⟨rfl, sameControl_refl _, rfl, rfl, rfl⟩

theorem Carried.thumb {s u : State} (h : Carried s u) : u.cpsr.t = s.cpsr.t := (sameControl_iff.mp h.control).2.2.2.1

theorem Carried.writeReg (s : State) (r : Reg) (v : Word) : Carried s (writeReg s r v) := by constructor <;> simp

theorem SameBut.carried {w : Phys → Prop} {s u : State} (h : SameBut w s u) : Carried s u :=
  ⟨h.pc, by rw [h.cpsr, sameControl_refl], h.spsrs, h.env, h.inputs⟩

/-- The ways an instruction ends, each with the instructions that end so. -/
inductive ExecEnd (i : Instr) (s t : State) : Prop
  /-- At the next instruction. -/
  | advanced {u : State} (hu : Carried s u) (h : advance u = .next t)
  /-- At an address that is aligned where the instruction runs in its own state. -/
  | branched {u : State} (hu : Carried s u) (a : Word) (ha : InState i s → pcAligned s = true → misaligned a (fetchSize s) = false)
    (h : t = branchTo a u)
  | exchanged (hi : isBx i = true) (a : Word) (h : branchExchange a s = .next t)
  | wroteCpsr (hi : isMsrCpsr i = true) (mask : BitVec 4) (v : Word) (h : writeCpsr mask v s = .next t)
  | wroteSpsr (hi : isMsrSpsr i = true) (mask : BitVec 4) (v : Word) (h : writeSpsr mask v s = .next t)
  | returned {u : State} (hi : isReturn i = true) (hu : Carried s u) (m : Bool) (a : Word) (h : exceptionReturn m a u = .next t)
  | trapped (e : Exc) (hi : trapOf i = some e) (h : t = takeTrap e s)
  | aborted {u : State} (hi : accesses i s = true) (hu : Carried s u) (hc : u.cpsr = s.cpsr) (h : t = takeDataAbort u)

/-! ## Alignment of the targets -/

/-- A word-aligned address is aligned for either state. -/
theorem aligned_of_word {a : Word} (s : State) (h : wordAligned a = true) : misaligned a (fetchSize s) = false := by
  unfold fetchSize
  split
  · rw [wordAligned_iff] at h
    simp only [misaligned, Bool.not_eq_false', halfAligned_iff]
    omega
  · simp [misaligned, h]

theorem aligned_of_half {a : Word} {s : State} (ht : s.cpsr.t = true) (h : halfAligned a = true) :
    misaligned a (fetchSize s) = false := by
  simp [fetchSize, ht, misaligned, h]

theorem pcAligned_iff {s : State} : pcAligned s = true ↔ misaligned s.pc (fetchSize s) = false := by
  simp [pcAligned]

theorem pcAligned_arm {s : State} (ht : s.cpsr.t = false) : pcAligned s = true ↔ s.pc.toNat % 4 = 0 := by
  simp [pcAligned, fetchSize, ht, misaligned, wordAligned_iff]

theorem pcAligned_thumb {s : State} (ht : s.cpsr.t = true) : pcAligned s = true ↔ s.pc.toNat % 2 = 0 := by
  simp [pcAligned, fetchSize, ht, misaligned, halfAligned_iff]

theorem toNat_branchOffset_mod {n : Nat} (off : BitVec n) {k : Nat} (hk : k ≤ 32) : (branchOffset off k).toNat % 2 ^ k = 0 := by
  rw [branchOffset, BitVec.toNat_shiftLeft, Nat.shiftLeft_eq]
  exact Nat.mod_eq_zero_of_dvd ((Nat.dvd_mod_iff (pow_dvd_pow 2 hk)).mpr (Dvd.intro_left _ rfl))

/-- The target of an ARM branch is a word address where the pc is. -/
theorem armTarget_aligned {s : State} (off : BitVec 24) (ht : s.cpsr.t = false) (h : pcAligned s = true) :
    misaligned (s.pc + 8 + branchOffset off 2) (fetchSize s) = false := by
  have hoff := toNat_branchOffset_mod off (k := 2) (by decide)
  rw [pcAligned_arm ht] at h
  simp only [fetchSize, ht, Bool.false_eq_true, if_false, misaligned, Bool.not_eq_false', wordAligned_iff, BitVec.toNat_add,
    BitVec.reduceToNat]
  omega

theorem thumbTarget_aligned {n : Nat} {s : State} (off : BitVec n) (ht : s.cpsr.t = true) (h : pcAligned s = true) :
    misaligned (s.pc + 4 + branchOffset off 1) (fetchSize s) = false := by
  have hoff := toNat_branchOffset_mod off (k := 1) (by decide)
  rw [pcAligned_thumb ht] at h
  simp only [fetchSize, ht, if_true, misaligned, Bool.not_eq_false', halfAligned_iff, BitVec.toNat_add, BitVec.reduceToNat]
  omega

/-! ## The shared operations -/

/-- A multiply advances from a state with the result written and, of the CPSR, at most flags. -/
theorem finishMul_advances {sf : Bool} {rd : Reg} {v : Word} {s t : State} (h : finishMul sf rd v s = .next t) :
    ∃ u, Carried s u ∧ advance u = .next t := by
  unfold finishMul at h
  simp only at h
  split at h
  · exact ⟨_, by constructor <;> simp [setNZ, sameControl], h⟩
  · exact ⟨_, .writeReg s rd v, h⟩

theorem finishMulLong_advances {sf : Bool} {hi lo : Reg} {v : BitVec 64} {s t : State}
    (h : finishMulLong sf hi lo v s = .next t) : ∃ u, Carried s u ∧ advance u = .next t := by
  unfold finishMulLong at h
  simp only at h
  split at h
  · exact ⟨_, by constructor <;> simp [setNZ64, sameControl], h⟩
  · exact ⟨_, by constructor <;> simp, h⟩

section Ends

variable {i : Instr} {s t : State}

theorem dataProcess_end {op : AluOp} (hop : compares op = false) {c : Cond} {sf : Bool} {rn rd : Reg} {a : Word} {o2 : Op2}
    {o : Shifted} (h : dataProcess op sf a rd o s = .next t) : ExecEnd (dpInstr op c sf rn rd o2) s t := by
  unfold dataProcess at h
  simp only at h
  split at h
  · rename_i hrd
    split at h
    · rename_i hs
      exact .returned (by rw [hrd, hs, isReturn_dpInstr hop]) (.refl s) _ _ h
    · obtain ⟨ha, rfl⟩ := branchAligned_next h
      exact .branched (.refl s) _ (fun _ _ => aligned_of_word s ha) rfl
  · exact .advanced (by constructor <;> simp) h

theorem readPsr_end {spsr : Bool} {rd : Reg} (h : readPsr spsr rd s = .next t) : ExecEnd i s t := by
  obtain ⟨w, ha⟩ := readPsr_next h
  exact .advanced (.writeReg s rd w) ha

theorem writePsr_end {spsr : Bool} {mask : BitVec 4} {v : Word} (hi : msrOf s i = some (spsr, mask, v))
    (h : writePsr spsr mask v s = .next t) : ExecEnd i s t := by
  cases spsr with
  | false => exact .wroteCpsr (by cases i <;> cases hi <;> rfl) mask v h
  | true => exact .wroteSpsr (by cases i <;> cases hi <;> rfl) mask v h

theorem loadSingle_end {k : LoadKind} {priv : Bool} {rn rd : Reg} {x : Address} (hi : accesses i s = true)
    (h : loadSingle k priv rn rd x s = .next t) : ExecEnd i s t := by
  obtain ⟨-, ht⟩ | ⟨-, -, v, u, hu, h⟩ := loadSingle_next h
  · exact .aborted hi (by constructor <;> simp) (by simp) ht
  · obtain rfl : _ = u := congrArg Prod.snd hu
    obtain ⟨-, ht⟩ | ⟨-, ha⟩ := loadTo_next h
    · exact .branched (by constructor <;> simp) _ (fun _ _ => aligned_of_word s (wordAligned_wordMask _)) ht
    · exact .advanced (by constructor <;> simp) ha

theorem storeSingle_end {size : Size} {priv : Bool} {rn rd : Reg} {x : Address} (hi : accesses i s = true)
    (h : storeSingle size priv rn rd x s = .next t) : ExecEnd i s t := by
  obtain ⟨-, ht⟩ | ⟨-, -, ha⟩ := storeSingle_next h
  · exact .aborted hi (by constructor <;> simp) (by simp) ht
  · exact .advanced (by constructor <;> simp) ha

theorem swap_end {size : Size} {rn rd rm : Reg} (hi : accesses i s = true) (h : swap size rn rd rm s = .next t) :
    ExecEnd i s t := by
  obtain ⟨-, ht⟩ | ⟨-, v, u, hu, ⟨-, ht⟩ | ⟨-, ha⟩⟩ := swap_next h
  · exact .aborted hi (by constructor <;> simp) (by simp) ht
  · obtain rfl : _ = u := congrArg Prod.snd hu
    exact .aborted hi (by constructor <;> simp) (by simp) ht
  · obtain rfl : _ = u := congrArg Prod.snd hu
    exact .advanced (by constructor <;> simp) ha

/-- Only the Thumb block loads end as POP does. -/
theorem isThumb_of_blockEndOf {b : Block} (hi : blockLoadOf s i = some b) (h : blockEndOf i = .thumb) : isThumb i = true := by
  cases i <;> cases hi
  case ldm | ldmUser | ldmRet => cases h
  case tPop | tLdmia => rfl

theorem endBlock_end {b : Block} (hi : blockLoadOf s i = some b) {u : State} (hu : Carried s u) {v : Option Word}
    (h : endBlock (blockEndOf i) v u = .next t) : ExecEnd i s t := by
  obtain ⟨-, ⟨-, ha⟩ | ⟨-, ha⟩⟩ | ⟨w, -, ⟨-, ht⟩ | ⟨he, ht⟩ | ⟨he, hr⟩ | ⟨-, ht⟩⟩ := endBlock_next h
  · have hu' : Carried s { u with userLdm := true } := ⟨hu.pc, hu.control, hu.spsrs, hu.env, hu.inputs⟩
    exact .advanced hu' ha
  · exact .advanced hu ha
  · exact .branched hu _ (fun _ _ => aligned_of_word s (wordAligned_wordMask w)) ht
  · refine .branched hu _ (fun hin _ => ?_) ht
    exact aligned_of_half (hin.trans (isThumb_of_blockEndOf hi he)) (halfAligned_halfMask w)
  · exact .returned (blockEndOf_ret he).2 hu true w hr
  · exact .branched hu _ (fun _ _ => aligned_of_word s (wordAligned_wordMask w)) ht

theorem blockLoad_end {b : Block} (hi : blockLoadOf s i = some b)
    (h : blockLoad (blockEndOf i) b.mode b.rn b.regs b.start b.wb s = .next t) : ExecEnd i s t := by
  obtain ⟨-, ⟨-, ht⟩ | ⟨-, vs, u, hu, he⟩⟩ := blockLoad_next h
  · exact .aborted (by simp [accesses, hi]) (by constructor <;> simp) (by simp) ht
  · obtain rfl : _ = u := congrArg Prod.snd hu
    exact endBlock_end hi (by constructor <;> simp) he

theorem blockStore_end {m : Mode} {rn : Reg} {regs : List Reg} {start : Word} {wb : Option Word} (hi : accesses i s = true)
    (h : blockStore m rn regs start wb s = .next t) : ExecEnd i s t := by
  obtain ⟨-, ⟨-, ht⟩ | ⟨-, ha⟩⟩ := blockStore_next h
  · exact .aborted hi (by constructor <;> simp) (by simp) ht
  · exact .advanced (by constructor <;> simp) ha

/-- A format 5 ADD or MOV is a Thumb instruction. -/
theorem isThumb_of_highOf {x : Reg × Word} (hi : highOf s i = some x) : isThumb i = true := by
  cases i <;> cases hi <;> rfl

theorem writeHigh_end {rd : Reg} {v : Word} (hi : highOf s i = some (rd, v)) (h : writeHigh rd v s = .next t) :
    ExecEnd i s t := by
  obtain ht | ha := writeHigh_next h
  · exact .branched (.refl s) _ (fun hin _ => aligned_of_half (hin.trans (isThumb_of_highOf hi)) (halfAligned_halfMask v)) ht
  · exact .advanced (.writeReg s rd v) ha

theorem isThumb_of_condBranchOf {x : Cond × BitVec 8} (hi : condBranchOf i = some x) : isThumb i = true := by
  cases i <;> cases hi <;> rfl

theorem branchIf_end {c : Cond} {off : BitVec 8} (hi : condBranchOf i = some (c, off)) (h : branchIf c off s = .next t) :
    ExecEnd i s t := by
  obtain ht | ha := branchIf_next h
  · exact .branched (.refl s) _ (fun hin => thumbTarget_aligned off (hin.trans (isThumb_of_condBranchOf hi))) ht
  · exact .advanced (.refl s) ha

/-- A branch without a link, from its own meaning: its target is where the offset says (40_arm_branch R191, 49_thumb_branch R444). -/
theorem branch_end (hi : isBranch i = true) (h : exec i s = .next t) : ExecEnd i s t := by
  cases i <;> cases hi
  case b c off =>
    obtain ⟨-, -, h⟩ | ⟨-, ha⟩ := conditional_next h
    · exact .branched (.refl s) _ (armTarget_aligned off) (Host.Outcome.next.inj h).symm
    · exact .advanced (.refl s) ha
  case tB off => exact .branched (.refl s) _ (thumbTarget_aligned off) (Host.Outcome.next.inj h).symm

/-- A branch with a link (R192, R447). -/
theorem branchLink_end (hi : isBranchLink i = true) (h : exec i s = .next t) : ExecEnd i s t := by
  cases i <;> cases hi
  case bl c off =>
    obtain ⟨-, -, h⟩ | ⟨-, ha⟩ := conditional_next h
    · exact .branched (.writeReg s 14 _) _ (armTarget_aligned off) (Host.Outcome.next.inj h).symm
    · exact .advanced (.refl s) ha
  case tBlLo off =>
    refine .branched (.writeReg s 14 _) _ (fun hin _ => ?_) (Host.Outcome.next.inj h).symm
    exact aligned_of_half hin (halfAligned_halfMask _)

end Ends

/-- How an instruction ends: it advances where its condition fails, and else as its effect does. -/
theorem exec_end {i : Instr} {s t : State} (h : exec i s = .next t) : ExecEnd i s t := by
  obtain ha | he := exec_next h
  · exact .advanced (.refl s) ha
  generalize hr : Host.Outcome.next t = r at he
  replace hr := hr.symm
  cases he with
  | dataProcess op c sf rn rd o hop => exact dataProcess_end hop hr
  | compare => exact .advanced (by constructor <;> simp) hr
  | thumbAlu => exact .advanced (by constructor <;> simp) hr
  | thumbCompare => exact .advanced (by constructor <;> simp) hr
  | readPsr => exact readPsr_end hr
  | writePsr hi => exact writePsr_end hi hr
  | multiply =>
    obtain ⟨u, hu, ha⟩ := finishMul_advances hr
    exact .advanced hu ha
  | multiplyLong =>
    obtain ⟨u, hu, ha⟩ := finishMulLong_advances hr
    exact .advanced hu ha
  | load hi => exact loadSingle_end (by simp [accesses, hi]) hr
  | store hi => exact storeSingle_end (by simp [accesses, hi]) hr
  | swap hi => exact swap_end (by simp [accesses, hi]) hr
  | blockLoad why hi =>
    split at hr
    · exact blockLoad_end hi hr
    · cases hr
  | blockStore why hi =>
    split at hr
    · exact blockStore_end (by simp [accesses, hi]) hr
    · cases hr
  | trap hi => exact .trapped _ hi (Host.Outcome.next.inj hr).symm
  | exchange hi => exact .exchanged (isBx_of_bxOf hi) _ hr
  | high hi => exact writeHigh_end hi hr
  | setReg => exact .advanced (.writeReg s _ _) hr
  | condBranch hi => exact branchIf_end hi hr
  | branch a hi => exact branch_end hi h
  | branchLink a v hi => exact branchLink_end hi h

end Sys2Proof.Machine
end

section
/-! The fetch: an ARM word is an ARM instruction and a Thumb halfword a Thumb one, and what the boundary and the fetch leave. -/

namespace Sys2Proof

open Sys2Proof.Machine

/-! ## Which state a decoded instruction is of (30_encoding R140) -/

/-- A decoder's answer is no instruction of the other state. -/
def Decoded.ofState (thumb : Bool) : Decoded → Bool
  | .ok i => isThumb i == thumb
  | .error _ => true

@[simp] theorem Decoded.ofState_ok (thumb : Bool) (i : Instr) : Decoded.ofState thumb (.ok i) = (isThumb i == thumb) := rfl

@[simp] theorem Decoded.ofState_error (thumb : Bool) (e : DecodeError) : Decoded.ofState thumb (.error e) = true := rfl

@[simp] theorem Decoded.ofState_sbz (thumb : Bool) {n : Nat} (v : BitVec n) (i : Instr) :
    Decoded.ofState thumb (sbz v i) = (v != 0 || isThumb i == thumb) := by
  unfold sbz
  split <;> simp_all

@[simp] theorem decodeDpImm_arm (c : Cond) (w : Word) : Decoded.ofState false (decodeDpImm c w) = true := by
  unfold decodeDpImm
  simp only
  split <;> simp [isThumb]

@[simp] theorem decodeDpShImm_arm (c : Cond) (w : Word) : Decoded.ofState false (decodeDpShImm c w) = true := by
  unfold decodeDpShImm
  simp only
  split <;> simp [isThumb]

@[simp] theorem decodeDpShReg_arm (c : Cond) (w : Word) : Decoded.ofState false (decodeDpShReg c w) = true := by
  unfold decodeDpShReg
  simp only
  split <;> simp [isThumb]

@[simp] theorem decodeMulSwap_arm (c : Cond) (w : Word) : Decoded.ofState false (decodeMulSwap c w) = true := by
  unfold decodeMulSwap
  simp only
  split <;> simp [isThumb, apply_ite (Decoded.ofState false)]

@[simp] theorem decodeHalf_arm (c : Cond) (w : Word) : Decoded.ofState false (decodeHalf c w) = true := by
  unfold decodeHalf
  simp only
  split <;> simp [isThumb]

@[simp] theorem decodeControl_arm (c : Cond) (w : Word) : Decoded.ofState false (decodeControl c w) = true := by
  simp [decodeControl, isThumb, apply_ite (Decoded.ofState false)]

@[simp] theorem decodeSingle_arm (c : Cond) (w : Word) : Decoded.ofState false (decodeSingle c w) = true := by
  unfold decodeSingle
  simp only
  generalize w.getLsbD 21 = wb
  split <;> cases wb <;> rfl

@[simp] theorem decodeBlock_arm (c : Cond) (w : Word) : Decoded.ofState false (decodeBlock c w) = true := by
  unfold decodeBlock
  simp only
  split <;> simp [isThumb]

@[simp] theorem decodeCpTransfer_arm (c : Cond) (w : Word) : Decoded.ofState false (decodeCpTransfer c w) = true := by
  simp [decodeCpTransfer, isThumb, apply_ite (Decoded.ofState false)]

@[simp] theorem decodeCpSwi_arm (c : Cond) (w : Word) : Decoded.ofState false (decodeCpSwi c w) = true := by
  unfold decodeCpSwi
  split <;> simp [isThumb]

@[simp] theorem decodeReg_arm (c : Cond) (w : Word) : Decoded.ofState false (decodeReg c w) = true := by
  unfold decodeReg
  split <;> simp [apply_ite (Decoded.ofState false)]

@[simp] theorem decodeImm_arm (c : Cond) (w : Word) : Decoded.ofState false (decodeImm c w) = true := by
  simp [decodeImm, isThumb, apply_ite (Decoded.ofState false)]

theorem decodeArm_arm (w : Word) : Decoded.ofState false (decodeArm w) = true := by
  unfold decodeArm
  split
  · rfl
  · split <;> simp [isThumb, apply_ite (Decoded.ofState false)]

@[simp] theorem decodeShiftAdd_thumb (h : Half) : Decoded.ofState true (decodeShiftAdd h) = true := by
  unfold decodeShiftAdd
  split
  case h_4 => split <;> rfl
  all_goals rfl

@[simp] theorem decodeImmThumb_thumb (h : Half) : Decoded.ofState true (decodeImmThumb h) = true := by
  unfold decodeImmThumb
  split <;> rfl

@[simp] theorem decodeAluThumb_thumb (h : Half) : Decoded.ofState true (decodeAluThumb h) = true := by
  unfold decodeAluThumb
  simp only
  split <;> rfl

@[simp] theorem decodeHi_thumb (h : Half) : Decoded.ofState true (decodeHi h) = true := by
  unfold decodeHi
  simp only
  split <;> simp [isThumb, apply_ite (Decoded.ofState true)]

@[simp] theorem decodeRegThumb_thumb (h : Half) : Decoded.ofState true (decodeRegThumb h) = true := by
  unfold decodeRegThumb
  split <;> simp [isThumb]

@[simp] theorem decodeOffThumb_thumb (h : Half) : Decoded.ofState true (decodeOffThumb h) = true := by
  unfold decodeOffThumb
  split <;> rfl

@[simp] theorem decodeHalfSp_thumb (h : Half) : Decoded.ofState true (decodeHalfSp h) = true := by
  unfold decodeHalfSp
  split <;> rfl

@[simp] theorem decodeMiscThumb_thumb (h : Half) : Decoded.ofState true (decodeMiscThumb h) = true := by
  unfold decodeMiscThumb
  split <;> simp [isThumb, apply_ite (Decoded.ofState true)]

@[simp] theorem decodeCondThumb_thumb (h : Half) : Decoded.ofState true (decodeCondThumb h) = true := by
  unfold decodeCondThumb
  simp only
  split <;> rfl

theorem decodeThumb_thumb (h : Half) : Decoded.ofState true (decodeThumb h) = true := by
  unfold decodeThumb
  split
  case h_6 | h_7 | h_8 => split <;> simp [isThumb]
  all_goals simp

/-- The decoder of a state gives instructions of that state. -/
theorem isThumb_of_decodeFetched {thumb : Bool} {w : Word} {i : Instr} (h : decodeFetched thumb w = .ok i) :
    isThumb i = thumb := by
  have hd : Decoded.ofState thumb (decodeFetched thumb w) = true := by
    cases thumb
    · exact decodeArm_arm w
    · exact decodeThumb_thumb _
  simpa [h] using hd

end Sys2Proof
end

section
/-! What the boundary and the fetch lead to, and so what a whole step is. -/

namespace Sys2Proof.Machine

open Sys2Proof.Claims

/-- `u` is what a step from `s` is in before any exception or instruction has its effect: one input consumed, and nothing on the bus
that writes. -/
structure Begun (s u : State) : Prop where
  regs : u.regs = s.regs
  pc : u.pc = s.pc
  cpsr : u.cpsr = s.cpsr
  spsrs : u.spsrs = s.spsrs
  mem : u.mem = s.mem
  env : u.env = s.env
  reads : ∀ x ∈ u.bus, x.dout = none

theorem Begun.beginStep (s : State) : Begun s (beginStep s) := ⟨rfl, rfl, rfl, rfl, rfl, rfl, List.forall_mem_nil _⟩

theorem Begun.recordFetch (s : State) : Begun s (record (Machine.beginStep s) (fetchAccess (Machine.beginStep s))) := by
  refine ⟨rfl, rfl, rfl, rfl, rfl, rfl, fun x hx => ?_⟩
  obtain rfl : x = fetchAccess (Machine.beginStep s) := by simpa using hx
  rfl

theorem fetchWord_frame (s : State) : ∃ d, (fetchWord s).2 = { s with draws := d } := by
  have hread := readMem_frame s s.pc (fetchSize s)
  unfold fetchWord
  split
  · exact hread
  · rename_i old _
    by_cases ho : old = (readMem s s.pc (fetchSize s)).1
    · rw [if_pos ho]
      exact hread
    · rw [if_neg ho]
      exact ⟨s.draws + 1, rfl⟩

theorem dispatch_eq_run {hazard : Bool} {w : Word} {s u : State} {i : Instr} (h : dispatch hazard w s = .run i u) :
    decodeFetched s.cpsr.t w = .ok i ∧ u = ready s := by
  unfold dispatch at h
  split at h
  · cases h
  · rename_i j hj
    split at h
    · cases h
    · cases h
      exact ⟨hj, rfl⟩

theorem dispatch_ne_taken {hazard : Bool} {w : Word} {s v : State} : dispatch hazard w s ≠ .taken v := by
  unfold dispatch
  split
  · nofun
  · split <;> nofun

theorem boundary_eq_some {x : Inputs} {s v : State} (h : boundary x s = some v) :
    (x.nRESET = false ∧ v = takeReset s) ∨ ∃ e, v = takeBefore e s := by
  unfold boundary at h
  split at h
  · rename_i hr
    exact .inl ⟨by simpa using hr, (Option.some.inj h).symm⟩
  · split at h
    · exact .inr ⟨.fiq, (Option.some.inj h).symm⟩
    · split at h
      · exact .inr ⟨.irq, (Option.some.inj h).symm⟩
      · cases h

/-- A step that no instruction runs in takes the reset, or an exception that comes before the instruction. -/
theorem fetch_taken {s v : State} (h : fetch s = .taken v) :
    ((lines s).nRESET = false ∧ v = takeReset (beginStep s)) ∨ ∃ e u, Begun s u ∧ v = takeBefore e u := by
  unfold fetch at h
  split at h
  · rename_i t ht
    cases h
    exact (boundary_eq_some ht).imp_right fun ⟨e, hv⟩ => ⟨e, _, .beginStep s, hv⟩
  · unfold fetchAt at h
    split at h
    · cases h
    · split at h
      · cases h
        exact .inr ⟨_, _, .recordFetch s, rfl⟩
      · exact absurd h dispatch_ne_taken

/-- The instruction that runs is of the state of the processor, and only the fetch is on the bus. -/
theorem fetch_run {s u : State} {i : Instr} (h : fetch s = .run i u) :
    Begun s u ∧ InState i u ∧ ∃ x, u.bus = [x] ∧ x.dout = none := by
  unfold fetch at h
  split at h
  · cases h
  · unfold fetchAt at h
    split at h
    · cases h
    · split at h
      · cases h
      · obtain ⟨hdec, rfl⟩ := dispatch_eq_run h
        obtain ⟨d, hd⟩ := fetchWord_frame (record (beginStep s) (fetchAccess (beginStep s)))
        rw [hd] at hdec ⊢
        have hb := Begun.recordFetch s
        exact ⟨⟨rfl, rfl, rfl, rfl, rfl, rfl, hb.reads⟩, (isThumb_of_decodeFetched hdec).symm, _, rfl, rfl⟩

/-- A whole step takes what the fetch led to, or runs the instruction. -/
theorem wholeStep_next {s t : State} (h : wholeStep s = .next t) :
    fetch s = .taken t ∨ ∃ i u, fetch s = .run i u ∧ exec i u = .next t := by
  unfold wholeStep at h
  split at h
  · rename_i v hv
    exact .inl (Host.Outcome.next.inj h ▸ hv)
  · cases h
  · cases h
  · rename_i i u hu
    exact .inr ⟨i, u, hu, h⟩

/-- Every way a step can answer a next state. -/
inductive StepEnd (s t : State) : Prop
  /-- A reset at the boundary. -/
  | reset (hr : (lines s).nRESET = false) (h : t = takeReset (beginStep s))
  /-- A reset that falls into the step. -/
  | abandoned (n : Nat) (hn : (lines s).resetAfter = some n) (u : State) (h : t = takeReset (abandon n (beginStep s) u))
  /-- An exception that comes before the instruction. -/
  | entered (e : Exc) (u : State) (hu : Begun s u) (h : t = takeBefore e u)
  /-- An instruction of the processor's state. -/
  | ran (i : Instr) (u : State) (hf : fetch s = .run i u) (hu : Begun s u) (hi : InState i u) (h : exec i u = .next t)

theorem step_end {s t : State} (h : step s = .next t) : StepEnd s t := by
  obtain ⟨u, hw, rfl | ⟨n, -, hn, rfl⟩⟩ := step_next h
  · obtain hv | ⟨i, v, hf, he⟩ := wholeStep_next hw
    · obtain ⟨hr, ht⟩ | ⟨e, v, hu, ht⟩ := fetch_taken hv
      · exact .reset hr ht
      · exact .entered e v hu ht
    · obtain ⟨hu, hi, -⟩ := fetch_run hf
      exact .ran i v hf hu hi he
  · exact .abandoned n hn u rfl

/-- What a reset leaves is a state the machine may be in after reset (10_state R60). -/
theorem afterReset_takeReset (s : State) : AfterReset (takeReset s) := ⟨rfl, rfl, rfl, rfl, rfl, rfl, rfl⟩

end Sys2Proof.Machine
end

section
/-! The status registers: what an instruction may do to the control bits of the CPSR and to the SPSRs, and what may change T. -/

namespace Sys2Proof.Machine

open Sys2Proof.Claims

/-- What an instruction does to the control bits of the CPSR and to the SPSRs, by the cause that allows it. -/
inductive StatusEnd (i : Instr) (s t : State) : Prop
  | kept (hc : sameControl t.cpsr s.cpsr = true) (hq : t.spsrs = s.spsrs)
  | exchanged (hi : isBx i = true) (hc : t.cpsr = { s.cpsr with t := t.cpsr.t }) (hq : t.spsrs = s.spsrs)
  | wroteCpsr (hi : isMsrCpsr i = true) (mask : BitVec 4) (v : Word) (ht : t.cpsr.t = s.cpsr.t)
    (hw : Psr.ofWord (mergeBytes (msrMask s.cpsr.mode mask) s.cpsr.toWord v) = some t.cpsr) (hq : t.spsrs = s.spsrs)
  | wroteSpsr (hi : isMsrSpsr i = true) (w v : Word) (hm : s.spsrs.get s.cpsr.mode = some w) (hc : t.cpsr = s.cpsr)
    (hq : t.spsrs = s.spsrs.set s.cpsr.mode v)
  | returned (hi : isReturn i = true) (hw : s.spsrs.get s.cpsr.mode = some t.cpsr.toWord) (hq : t.spsrs = s.spsrs)
  | trapped (e : Exc) (hi : trapOf i = some e) (h : t = takeTrap e s)
  | aborted (hi : accesses i s = true) (h : TookDataAbort s t) (hq : t.spsrs = s.spsrs.set .abt s.cpsr.toWord)

/-- The SPSRs, the platform and the input lines, as an advance leaves them. -/
theorem advance_rest {s t : State} (h : advance s = .next t) : t.spsrs = s.spsrs ∧ t.env = s.env ∧ t.inputs = s.inputs := by
  obtain ⟨-, rfl⟩ := advance_next h
  exact ⟨rfl, rfl, rfl⟩

theorem branchExchange_rest {a : Word} {s t : State} (h : branchExchange a s = .next t) :
    t.spsrs = s.spsrs ∧ t.env = s.env ∧ t.inputs = s.inputs := by
  obtain ⟨-, rfl⟩ | ⟨-, -, rfl⟩ := branchExchange_next h <;> exact ⟨rfl, rfl, rfl⟩

theorem exceptionReturn_rest {m : Bool} {a : Word} {s t : State} (h : exceptionReturn m a s = .next t) :
    t.spsrs = s.spsrs ∧ t.env = s.env ∧ t.inputs = s.inputs := by
  obtain ⟨w, p, -, -, ⟨-, rfl⟩ | ⟨-, -, rfl⟩ | ⟨-, -, -, rfl⟩⟩ := exceptionReturn_next h <;> exact ⟨rfl, rfl, rfl⟩

/-- A return takes the CPSR from the SPSR of the mode. -/
theorem exceptionReturn_cpsr {m : Bool} {a : Word} {s t : State} (h : exceptionReturn m a s = .next t) :
    s.spsrs.get s.cpsr.mode = some t.cpsr.toWord := by
  obtain ⟨w, p, hw, hp, ht⟩ := exceptionReturn_next h
  have hpw : p.toWord = w := Psr.toWord_of_ofWord hp
  obtain ⟨-, rfl⟩ | ⟨-, -, rfl⟩ | ⟨-, -, -, rfl⟩ := ht <;> exact hpw ▸ hw

/-- An MSR to the CPSR keeps T, and what it writes is a CPSR. -/
theorem writeCpsr_next {mask : BitVec 4} {v : Word} {s t : State} (h : writeCpsr mask v s = .next t) :
    ∃ p, p.t = s.cpsr.t ∧ Psr.ofWord (mergeBytes (msrMask s.cpsr.mode mask) s.cpsr.toWord v) = some p ∧
      advance { s with cpsr := p } = .next t := by
  unfold writeCpsr at h
  simp only at h
  split at h
  · cases h
  · rename_i hT
    split at h
    · cases h
    · rename_i p hp
      have ht : p.t = (mergeBytes (msrMask s.cpsr.mode mask) s.cpsr.toWord v).getLsbD 5 :=
        congrArg Psr.t (Psr.ofWord_eq_some hp).2
      exact ⟨p, by simpa [ht] using hT, hp, h⟩

theorem writeSpsr_next {mask : BitVec 4} {v : Word} {s t : State} (h : writeSpsr mask v s = .next t) :
    ∃ w, s.spsrs.get s.cpsr.mode = some w ∧
      advance { s with spsrs := s.spsrs.set s.cpsr.mode (mergeBytes mask w v) } = .next t := by
  unfold writeSpsr at h
  split at h
  · cases h
  · rename_i w hw
    exact ⟨w, hw, h⟩

section Frame

variable {i : Instr} {s t : State}

/-- No instruction changes the platform or the input lines. -/
theorem ExecEnd.platform (h : ExecEnd i s t) : t.env = s.env ∧ t.inputs = s.inputs := by
  cases h with
  | advanced hu h =>
    obtain ⟨-, he, hl⟩ := advance_rest h
    exact ⟨he.trans hu.env, hl.trans hu.inputs⟩
  | branched hu a ha h => exact h ▸ ⟨hu.env, hu.inputs⟩
  | exchanged hi a h => exact (branchExchange_rest h).2
  | wroteCpsr hi mask v h =>
    obtain ⟨p, -, -, ha⟩ := writeCpsr_next h
    exact (advance_rest ha).2
  | wroteSpsr hi mask v h =>
    obtain ⟨w, -, ha⟩ := writeSpsr_next h
    exact (advance_rest ha).2
  | returned hi hu m a h =>
    obtain ⟨-, he, hl⟩ := exceptionReturn_rest h
    exact ⟨he.trans hu.env, hl.trans hu.inputs⟩
  | trapped e hi h => exact h ▸ ⟨rfl, rfl⟩
  | aborted hi hu hc h => exact h ▸ ⟨hu.env, hu.inputs⟩

theorem ExecEnd.status (h : ExecEnd i s t) : StatusEnd i s t := by
  cases h with
  | advanced hu h => exact .kept (by rw [advance_cpsr h, hu.control]) ((advance_rest h).1.trans hu.spsrs)
  | branched hu a ha h => exact .kept (by rw [h, branchTo_cpsr, hu.control]) (h ▸ hu.spsrs)
  | exchanged hi a h => exact .exchanged hi (branchExchange_cpsr h) (branchExchange_rest h).1
  | wroteCpsr hi mask v h =>
    obtain ⟨p, hp, hw, ha⟩ := writeCpsr_next h
    obtain rfl : t.cpsr = p := advance_cpsr ha
    exact .wroteCpsr hi mask v hp hw (advance_rest ha).1
  | wroteSpsr hi mask v h =>
    obtain ⟨w, hw, ha⟩ := writeSpsr_next h
    exact .wroteSpsr hi w _ hw (advance_cpsr ha :) (advance_rest ha).1
  | returned hi hu m a h =>
    have hmode := (sameControl_iff.mp hu.control).2.2.2.2
    exact .returned hi (hu.spsrs ▸ hmode ▸ exceptionReturn_cpsr h) ((exceptionReturn_rest h).1.trans hu.spsrs)
  | trapped e hi h => exact .trapped e hi h
  | aborted hi hu hc h =>
    subst h
    exact .aborted hi (tookDataAbort hu.pc hc) (by simp [takeDataAbort, Exc.mode, hu.spsrs, hc])

end Frame

/-- Writing one SPSR changes no other. -/
theorem Spsrs.get_set_ne (q : Spsrs) {m n : Mode} (v : Word) (h : n ≠ m) : (q.set m v).get n = q.get n := by
  rw [Spsrs.get_set, if_neg (fun hn => h hn.1)]

/-- An exception saves the CPSR in the SPSR of its mode. -/
theorem enterException_spsr (e : Exc) (ret : Word) (s : State) :
    (enterException e ret s).spsrs.get e.mode = some s.cpsr.toWord := by
  rw [enterException_spsrs, Spsrs.get_set, if_pos ⟨rfl, e.mode_banked⟩]

/-- Settles O52, by the causes that let an instruction write an SPSR. -/
theorem frameSpecial : Obligations.FrameSpecial := by
  intro i s t h
  have hend := exec_end h
  refine ⟨hend.platform.1, hend.platform.2, fun m => ?_⟩
  cases hend.status with
  | kept _ hq | exchanged _ _ hq | wroteCpsr _ _ _ _ _ hq | returned _ _ hq => exact .inl (by rw [hq])
  | wroteSpsr hi w v hm hc hq =>
    by_cases hmode : m = s.cpsr.mode
    · exact .inr (.inl ⟨hi, hmode⟩)
    · exact .inl (by rw [hq, Spsrs.get_set_ne _ _ hmode])
  | trapped e hi h =>
    by_cases hmode : m = e.mode
    · exact .inr (.inr (.inl ⟨e, hi, hmode⟩))
    · exact .inl (by rw [h, takeTrap, enterException_spsrs, Spsrs.get_set_ne _ _ hmode])
  | aborted hi h hq =>
    by_cases hmode : m = .abt
    · exact .inr (.inr (.inr ⟨hmode, hi, h⟩))
    · exact .inl (by rw [hq, Spsrs.get_set_ne _ _ hmode])

/-- Settles O60: of the ways a step ends and of what an instruction does to the status registers, these change T. -/
theorem stateChanges : Obligations.StateChanges := by
  intro s t h hT
  cases step_end h with
  | reset hr h => exact .inr (.inl (h ▸ ⟨rfl, afterReset_takeReset _, .inl hr⟩))
  | abandoned n hn u h => exact .inr (.inl (h ▸ ⟨rfl, afterReset_takeReset _, .inr (by simp [hn])⟩))
  | entered e u hu h => exact .inl (h ▸ ⟨rfl, e, rfl, rfl, hu.cpsr ▸ enterException_spsr e _ u⟩)
  | ran i u hf hu hi h =>
    cases (exec_end h).status with
    | kept hc _ => exact absurd ((sameControl_iff.mp hc).2.2.2.1.trans (congrArg Psr.t hu.cpsr)) hT
    | exchanged hbx _ _ => exact .inr (.inr ⟨i, u, hf, h, .inl hbx⟩)
    | wroteCpsr _ _ _ ht _ _ => exact absurd (ht.trans (congrArg Psr.t hu.cpsr)) hT
    | wroteSpsr _ _ _ _ hc _ => exact absurd (congrArg Psr.t (hc.trans hu.cpsr)) hT
    | returned hr hw _ => exact .inr (.inr ⟨i, u, hf, h, .inr ⟨hr, hu.spsrs ▸ hu.cpsr ▸ hw⟩⟩)
    | trapped e _ ht => exact .inl (ht ▸ ⟨rfl, e, rfl, rfl, hu.cpsr ▸ enterException_spsr e _ u⟩)
    | aborted _ ht hq =>
      obtain ⟨-, hspsr, hpc, hc⟩ := ht
      exact .inl ⟨by rw [hc], .dataAbort, by rw [hc]; rfl, hpc, congrArg some (hspsr.trans (hu.cpsr ▸ rfl))⟩

end Sys2Proof.Machine
end

section
/-! User mode: what an instruction and a step leave as it was (10_state R42, 60_exceptions R491, R492). -/

namespace Sys2Proof.Machine

open Sys2Proof.Claims

/-- Bit `k` of a merge is the new word's where the mask ticks its byte (42_arm_psr_transfer R244). -/
theorem getLsbD_mergeBytes (mask : BitVec 4) (old new : Word) {k : Nat} (hk : k < 32) :
    (mergeBytes mask old new).getLsbD k = if mask.getLsbD (k / 8) then new.getLsbD k else old.getLsbD k := by
  have byte : ∀ (c : Bool) (j i : Nat), (if c then new.extractLsb' j 8 else old.extractLsb' j 8).getLsbD i
      = (decide (i < 8) && if c then new.getLsbD (j + i) else old.getLsbD (j + i)) := by
    intro c j i
    cases c <;> exact BitVec.getLsbD_extractLsb' ..
  simp only [mergeBytes, BitVec.getLsbD_append, byte]
  interval_cases k <;> rfl

/-- In User mode an MSR keeps bits [23:0] of the CPSR. -/
theorem msrMask_user (mask : BitVec 4) {j : Nat} (hj : j < 3) : (msrMask .usr mask).getLsbD j = false := by
  interval_cases j <;> simp [msrMask, Mode.privileged]

theorem Mode.bits_inj {m n : Mode} (h : m.bits = n.bits) : m = n :=
  Option.some.inj (by rw [← Mode.ofBits_bits m, h, Mode.ofBits_bits])

/-- A PSR merged from another without its low byte has that one's mode, I and F. -/
theorem Psr.control_of_mergeBytes {mask : BitVec 4} {p q : Psr} {v : Word} (hm : mask.getLsbD 0 = false)
    (h : Psr.ofWord (mergeBytes mask q.toWord v) = some p) : p.mode = q.mode ∧ p.i = q.i ∧ p.f = q.f := by
  have low : ∀ k, k < 8 → p.toWord.getLsbD k = q.toWord.getLsbD k := fun k hk => by
    rw [Psr.toWord_of_ofWord h, getLsbD_mergeBytes _ _ _ (by omega), Nat.div_eq_of_lt hk, hm]
    rfl
  refine ⟨Mode.bits_inj ?_, ?_, ?_⟩
  · rw [← p.toWord_mode, ← q.toWord_mode]
    apply BitVec.eq_of_getLsbD_eq
    intro k hk
    simp only [BitVec.getLsbD_extractLsb', Nat.zero_add, low k (by omega)]
  · rw [← p.toWord_i, ← q.toWord_i, low 7 (by decide)]
  · rw [← p.toWord_f, ← q.toWord_f, low 6 (by decide)]

/-- An instruction whose effect is an exception takes it, or only advances. -/
theorem exec_trap {i : Instr} {s t : State} {e : Exc} (hi : trapOf i = some e) (h : exec i s = .next t) :
    advance s = .next t ∨ t = takeTrap e s := by
  have of_conditional : ∀ {c b}, conditional c b s (.next (takeTrap e s)) = .next t → advance s = .next t ∨ t = takeTrap e s :=
    fun h => (conditional_next h).symm.imp And.right fun h => (Host.Outcome.next.inj h.2.2).symm
  cases i <;> cases hi
  case undef | stc | ldc | cdp | mcr | mrc | swi => exact of_conditional h
  case tSwi => exact .inr (Host.Outcome.next.inj h).symm

/-- A register of no bank that User mode reaches keeps its value in an instruction from User mode whose effect is no exception, but
for R14_abt where a Data Abort was taken. -/
theorem exec_user_regs {i : Instr} {s t : State} {p : Phys} (hm : s.cpsr.mode = .usr) (hi : trapOf i = none)
    (h : exec i s = .next t) (hp : ∀ r, bank .usr r ≠ some p) :
    t.regs.get p = s.regs.get p ∨ (p = .r14Abt ∧ TookDataAbort s t) := by
  have hw : mayWrite i s.cpsr.mode p = false :=
    mayWrite_eq_false.mpr ⟨fun r _ => hm ▸ hp r, fun r _ => hp r, fun e he => by simp [hi] at he⟩
  exact (frameRegisters i s t p h hw).imp_right fun ⟨hl, _, ht⟩ => ⟨hl, ht⟩

/-- `t` keeps of `s` what User mode cannot write: the mode, I, F, the SPSRs and the registers of the other banks. -/
structure UserKept (s t : State) : Prop where
  mode : t.cpsr.mode = .usr
  i : t.cpsr.i = s.cpsr.i
  f : t.cpsr.f = s.cpsr.f
  spsrs : t.spsrs = s.spsrs
  regs : ∀ p, (∀ r, bank .usr r ≠ some p) → t.regs.get p = s.regs.get p

/-- `t` is what the entry of the exception `e` leaves, from User mode in `s`. -/
structure UserEntered (s t : State) (e : Exc) : Prop where
  mode : t.cpsr.mode = e.mode
  i : t.cpsr.i = true
  thumb : t.cpsr.t = false
  pc : t.pc = e.vector
  spsr : t.spsrs.get e.mode = some s.cpsr.toWord
  regs : ∀ p, (∀ r, bank .usr r ≠ some p) → p ≠ lrOf e.mode → t.regs.get p = s.regs.get p

theorem UserEntered.enterException {s u : State} (e : Exc) (ret : Word) (hc : u.cpsr = s.cpsr) (hr : u.regs = s.regs) :
    UserEntered s (enterException e ret u) e :=
  ⟨rfl, rfl, rfl, rfl, hc ▸ enterException_spsr e ret u, fun p _ hp => by
    rw [enterException_regs, Regs.get_set_ne _ _ hp, hr]⟩

/-- An instruction from User mode keeps what User mode cannot write, or enters an exception. -/
theorem exec_user {i : Instr} {s t : State} (hm : s.cpsr.mode = .usr) (h : exec i s = .next t) :
    UserKept s t ∨ ∃ e, UserEntered s t e := by
  have hspsr : s.spsrs.get s.cpsr.mode = none := by rw [hm]; rfl
  cases hi : trapOf i with
  | some e =>
    obtain ha | rfl := exec_trap hi h
    · have hc := advance_cpsr ha
      exact .inl ⟨by rw [hc, hm], by rw [hc], by rw [hc], (advance_rest ha).1, fun p _ => by rw [advance_regs ha]⟩
    · exact .inr ⟨e, .enterException e _ rfl rfl⟩
  | none =>
    have hregs := fun p => exec_user_regs (p := p) hm hi h
    have kept : t.cpsr.mode = .usr → t.cpsr.i = s.cpsr.i → t.cpsr.f = s.cpsr.f → t.spsrs = s.spsrs → UserKept s t :=
      fun hmode hi hf hq => ⟨hmode, hi, hf, hq, fun p hp => (hregs p hp).resolve_right fun ⟨_, _, _, _, hc⟩ => by
        simp [hc] at hmode⟩
    cases (exec_end h).status with
    | kept hc hq =>
      obtain ⟨-, hI, hF, -, hmode⟩ := sameControl_iff.mp hc
      exact .inl (kept (hmode.trans hm) hI hF hq)
    | exchanged _ hc hq => exact .inl (kept (by rw [hc, hm]) (by rw [hc]) (by rw [hc]) hq)
    | wroteCpsr _ mask v _ hw hq =>
      rw [hm] at hw
      obtain ⟨hmode, hI, hF⟩ := Psr.control_of_mergeBytes (msrMask_user mask (by decide)) hw
      exact .inl (kept (hmode.trans hm) hI hF hq)
    | wroteSpsr _ w v hw _ _ => simp [hspsr] at hw
    | returned _ hw _ => simp [hspsr] at hw
    | trapped e he _ => simp [hi] at he
    | aborted _ ht hq =>
      obtain ⟨-, hsaved, hpc, hc⟩ := ht
      refine .inr ⟨.dataAbort, by rw [hc]; rfl, by rw [hc], by rw [hc], hpc, congrArg some hsaved, fun p hp hl => ?_⟩
      exact (hregs p hp).resolve_right fun ha => hl ha.1

/-- Settles O59: the ways a step ends, and what an instruction from User mode keeps (`exec_user`). -/
theorem userModeConfined : Obligations.UserModeConfined := by
  intro s t hm h
  cases step_end h with
  | reset hr h => exact .inr (.inr ⟨.inl hr, h ▸ afterReset_takeReset _⟩)
  | abandoned n hn u h => exact .inr (.inr ⟨.inr (by simp [hn]), h ▸ afterReset_takeReset _⟩)
  | entered e u hu h =>
    obtain ⟨hmode, hI, hT, hpc, hq, hregs⟩ := UserEntered.enterException e (u.pc + 4) hu.cpsr hu.regs
    subst h
    exact .inr (.inl ⟨e, hmode, hI, hT, hpc, hq, hregs⟩)
  | ran i u _ hu _ h =>
    obtain ⟨hmode, hI, hF, hq, hregs⟩ | ⟨e, hmode, hI, hT, hpc, hq, hregs⟩ := exec_user (hu.cpsr ▸ hm) h
    · exact .inl ⟨hmode, hu.cpsr ▸ hI, hu.cpsr ▸ hF, hu.spsrs ▸ hq, hu.regs ▸ hregs⟩
    · exact .inr (.inl ⟨e, hmode, hI, hT, hpc, hu.cpsr ▸ hq, hu.regs ▸ hregs⟩)

end Sys2Proof.Machine
end

section
/-! The bus record of an instruction: memory is what replaying the accesses it made gives (Machine/Abandon.lean), and which accesses
those are. -/

namespace Sys2Proof.Machine

open Sys2Proof.Claims

/-- From `s` to `u` the accesses `l` were made, and memory is what they left. -/
structure Made (l : List Access) (s u : State) : Prop where
  bus : u.bus = s.bus ++ l
  mem : u.mem = (l.foldl replay s).mem
  env : u.env = s.env

theorem writeMem_mem_congr {s u : State} (hm : s.mem = u.mem) (he : s.env = u.env) (a : Word) (size : Size) (v : Word) :
    (writeMem s a size v).mem = (writeMem u a size v).mem := by
  unfold writeMem
  rw [he]
  split
  · exact hm
  · rw [hm]

/-- What a replayed access leaves in memory depends on memory and the platform alone. -/
theorem replay_mem_congr {s u : State} (hm : s.mem = u.mem) (he : s.env = u.env) (x : Access) :
    (replay s x).mem = (replay u x).mem := by
  unfold replay
  rw [he]
  split
  · split
    · exact hm
    · exact writeMem_mem_congr hm he _ _ _
  · exact hm

theorem replay_env (s : State) (x : Access) : (replay s x).env = s.env := by
  obtain ⟨m, h⟩ := replay_frame s x
  rw [h]

theorem foldl_replay_env (l : List Access) (s : State) : (l.foldl replay s).env = s.env := by
  obtain ⟨m, h⟩ := foldl_replay_frame l s
  rw [h]

theorem foldl_replay_mem_congr (l : List Access) {s u : State} (hm : s.mem = u.mem) (he : s.env = u.env) :
    (l.foldl replay s).mem = (l.foldl replay u).mem := by
  induction l generalizing s u with
  | nil => exact hm
  | cons x l ih => exact ih (replay_mem_congr hm he x) (by rw [replay_env, replay_env, he])

/-! ## Composing the parts of an operation -/

namespace Made

variable {l l' : List Access} {s u t : State}

theorem nil (hb : u.bus = s.bus) (hm : u.mem = s.mem) (he : u.env = s.env) : Made [] s u := ⟨by simp [hb], hm, he⟩

theorem trans (h : Made l s u) (h' : Made l' u t) : Made (l ++ l') s t where
  bus := by rw [h'.bus, h.bus, List.append_assoc]
  mem := by
    rw [h'.mem, List.foldl_append]
    exact foldl_replay_mem_congr l' h.mem (h.env.trans (foldl_replay_env l s).symm)
  env := h'.env.trans h.env

/-- What changes neither the bus, memory nor the platform makes no access. -/
theorem keep (h : Made l s u) (hb : t.bus = u.bus) (hm : t.mem = u.mem) (he : t.env = u.env) : Made l s t := by
  simpa using h.trans (.nil hb hm he)

theorem advance (h : Made l s u) (ha : advance u = .next t) : Made l s t := by
  obtain ⟨-, rfl⟩ := advance_next ha
  exact ⟨h.bus, h.mem, h.env⟩

theorem read (s : State) {x : Access} (hx : x.dout = none) : Made [x] s (record s x) :=
  ⟨rfl, by rw [List.foldl_cons, replay_read s hx]; rfl, rfl⟩

end Made

/-- A replayed write that the platform aborts does nothing. -/
theorem replay_aborted {s u : State} {a : Word} {size : Size} {priv locked : Bool} {d : Word}
    (h : abortsData u a size priv true = true) : replay u (accessOf s a size priv true locked (some d)) = u :=
  if_pos h

/-- A replayed write that is not aborted stores what was stored. -/
theorem replay_stored {s u : State} {a : Word} {size : Size} {priv locked : Bool} {v : Word}
    (h : abortsData u a size priv true = false) :
    replay u (accessOf s a size priv true locked (some (lanes v size))) = writeMem u a size v := by
  have hr : replay u (accessOf s a size priv true locked (some (lanes v size))) = writeMem u a size (lanes v size) :=
    if_neg (Bool.eq_false_iff.mp h)
  rw [hr]
  unfold writeMem
  split
  · rfl
  · rw [memWrite_lanes]

/-- A write that is driven and aborted. -/
theorem Made.driven {s u : State} {a : Word} {size : Size} {priv locked : Bool} {d : Word}
    (h : abortsData u a size priv true = true) :
    Made [accessOf s a size priv true locked (some d)] u (record u (accessOf s a size priv true locked (some d))) :=
  ⟨rfl, by rw [List.foldl_cons, replay_aborted h]; rfl, rfl⟩

/-- A write that is stored. -/
theorem Made.stored {s u : State} {a : Word} {size : Size} {priv locked : Bool} {v : Word}
    (h : abortsData u a size priv true = false) :
    Made [accessOf s a size priv true locked (some (lanes v size))] u
      (writeMem (record u (accessOf s a size priv true locked (some (lanes v size)))) a size v) where
  bus := writeMem_bus ..
  mem := by
    rw [List.foldl_cons, replay_stored h]
    exact writeMem_mem_congr (s := record u _) (u := u) rfl rfl a size v
  env := writeMem_env ..

/-! ## The accesses of each operation -/

theorem loadSingle_made {k : LoadKind} {priv : Bool} {rn rd : Reg} {x : Address} {s t : State}
    (h : loadSingle k priv rn rd x s = .next t) : ∃ y, y.dout = none ∧ Made [y] s t := by
  have read := Made.read s (x := accessOf s x.addr k.size priv false false none) rfl
  refine ⟨accessOf s x.addr k.size priv false false none, rfl, ?_⟩
  obtain ⟨-, rfl⟩ | ⟨-, -, v, u, hu, h⟩ := loadSingle_next h
  · exact read.keep (by simp [takeDataAbort]) (by simp [takeDataAbort]) (by simp [takeDataAbort])
  · obtain rfl : _ = u := congrArg Prod.snd hu
    obtain ⟨-, rfl⟩ | ⟨-, ha⟩ := loadTo_next h
    · exact read.keep (by simp) (by simp) (by simp)
    · exact (read.keep (by simp) (by simp) (by simp)).advance ha

theorem storeSingle_made {size : Size} {priv : Bool} {rn rd : Reg} {x : Address} {s t : State}
    (h : storeSingle size priv rn rd x s = .next t) : ∃ y, Made [y] s t := by
  refine ⟨accessOf s x.addr size priv true false (some (lanes (storeValue s s.cpsr.mode rd) size)), ?_⟩
  obtain ⟨ha, rfl⟩ | ⟨ha, -, h⟩ := storeSingle_next h
  · exact (Made.driven ha).keep (by simp [takeDataAbort]) (by simp [takeDataAbort]) (by simp [takeDataAbort])
  · exact ((Made.stored ha).keep (by simp) (by simp) (by simp)).advance h

theorem swap_made {size : Size} {rn rd rm : Reg} {s t : State} (h : swap size rn rd rm s = .next t) :
    ∃ y, y.dout = none ∧ (Made [y] s t ∨ ∃ z, Made [y, z] s t) := by
  have read := Made.read s (x := accessOf s (readReg s rn) size s.cpsr.mode.privileged false true none) rfl
  refine ⟨accessOf s (readReg s rn) size s.cpsr.mode.privileged false true none, rfl, ?_⟩
  obtain ⟨-, rfl⟩ | ⟨-, v, u, hu, h⟩ := swap_next h
  · exact .inl (read.keep rfl rfl rfl)
  · have hu : _ = u := congrArg Prod.snd hu
    replace read := read.keep (hu ▸ readMem_bus ..) (hu ▸ readMem_mem ..) (hu ▸ readMem_env ..)
    have hab : abortsData u (readReg s rn) size s.cpsr.mode.privileged true
        = abortsData s (readReg s rn) size s.cpsr.mode.privileged true := by simp only [abortsData, read.env]
    obtain ⟨ha, rfl⟩ | ⟨ha, h⟩ := h
    · exact .inr ⟨_, (read.trans (.driven (hab.trans ha))).keep rfl rfl rfl⟩
    · have stored := read.trans (.stored (s := s) (locked := true) (v := readReg s rm) (hab.trans ha))
      exact .inr ⟨_, (stored.keep (by simp) (by simp) (by simp)).advance h⟩

theorem recordReads_made (s : State) (l : List Word) :
    ∃ k, (∀ x ∈ k, x.dout = none) ∧ Made k s (recordReads s l) := by
  induction l generalizing s with
  | nil => exact ⟨[], List.forall_mem_nil _, .nil rfl rfl rfl⟩
  | cons a l ih =>
    obtain ⟨k, hk, h⟩ := ih (record s (accessOf s a .word s.cpsr.mode.privileged false false none))
    exact ⟨_, List.forall_mem_cons.mpr ⟨rfl, hk⟩, (Made.read s rfl).trans h⟩

theorem endBlock_made {e : BlockEnd} {v : Option Word} {l : List Access} {s u t : State} (hu : Made l s u)
    (h : endBlock e v u = .next t) : Made l s t := by
  obtain ⟨-, ⟨-, ha⟩ | ⟨-, ha⟩⟩ | ⟨w, -, ⟨-, rfl⟩ | ⟨-, rfl⟩ | ⟨-, hr⟩ | ⟨-, rfl⟩⟩ := endBlock_next h
  · have hu' : Made l s { u with userLdm := true } := ⟨hu.bus, hu.mem, hu.env⟩
    exact hu'.advance ha
  · exact hu.advance ha
  · exact hu.keep rfl rfl rfl
  · exact hu.keep rfl rfl rfl
  · obtain ⟨w, p, -, -, ⟨-, rfl⟩ | ⟨-, -, rfl⟩ | ⟨-, -, -, rfl⟩⟩ := exceptionReturn_next hr <;> exact hu.keep rfl rfl rfl
  · exact hu.keep rfl rfl rfl

theorem blockLoad_made {e : BlockEnd} {m : Mode} {rn : Reg} {regs : List Reg} {start : Word} {wb : Option Word} {s t : State}
    (h : blockLoad e m rn regs start wb s = .next t) : ∃ l, (∀ x ∈ l, x.dout = none) ∧ Made l s t := by
  obtain ⟨l, hl, reads⟩ := recordReads_made s (blockAddrs start regs.length)
  refine ⟨l, hl, ?_⟩
  obtain ⟨-, ⟨-, rfl⟩ | ⟨-, vs, u, hu, he⟩⟩ := blockLoad_next h
  · exact reads.keep (by simp [takeDataAbort]) (by simp [takeDataAbort]) (by simp [takeDataAbort])
  · obtain rfl : _ = u := congrArg Prod.snd hu
    exact endBlock_made (reads.keep (by simp) (by simp) (by simp)) he

/-- The writes of words on the bus, by address and value. -/
def wordWrites (s : State) (l : List (Word × Word)) : List Access :=
  l.map (fun x => accessOf s x.1 .word s.cpsr.mode.privileged true false (some x.2))

theorem storeWords_made (s : State) (l : List (Word × Word)) : Made (wordWrites s l) s (storeWords s l) := by
  induction l generalizing s with
  | nil => exact .nil rfl rfl rfl
  | cons x l ih =>
    obtain ⟨a, v⟩ := x
    have rest : ∀ u, u.cpsr = s.cpsr → Made (wordWrites s l) u (storeWords u l) := fun u hu => by
      have hw : wordWrites u l = wordWrites s l := by simp only [wordWrites, accessOf, hu]
      exact hw ▸ ih u
    rw [storeWords]
    split
    · rename_i ha
      exact (Made.driven ha).trans (rest _ rfl)
    · rename_i ha
      exact (Made.stored (v := v) (Bool.eq_false_iff.mpr ha)).trans (rest _ (writeMem_cpsr ..))

/-- The words of a block store, by address and value, in ascending order. -/
def blockWords (s : State) (b : Block) : List (Word × Word) :=
  (blockAddrs b.start b.regs.length).zip (b.regs.map (storeValue s b.mode))

theorem blockStore_made {b : Block} {s t : State} (h : blockStore b.mode b.rn b.regs b.start b.wb s = .next t) :
    blockRefusal s b.start b.regs.length true = none ∧ Made (wordWrites s (blockWords s b)) s t := by
  have words := storeWords_made s (blockWords s b)
  obtain ⟨hr, ⟨-, rfl⟩ | ⟨-, ha⟩⟩ := blockStore_next h
  · exact ⟨hr, words.keep (by simp [takeDataAbort, blockWords]) (by simp [takeDataAbort, blockWords])
      (by simp [takeDataAbort, blockWords])⟩
  · exact ⟨hr, (words.keep (by simp [blockWords]) (by simp [blockWords]) (by simp [blockWords])).advance ha⟩

/-! ## Every instruction -/

/-- The accesses an instruction makes from `s` to `t`, by its shape. -/
inductive MadeBy (i : Instr) (s t : State) : Prop
  | reads (l : List Access) (hl : ∀ x ∈ l, x.dout = none) (h : Made l s t)
  | store (hi : (storeOf s i).isSome = true) (x : Access) (h : Made [x] s t)
  | swap (hi : (swapOf i).isSome = true) (x y : Access) (hx : x.dout = none) (h : Made [x, y] s t)
  | blockStore (b : Block) (hi : blockStoreOf s i = some b) (hr : blockRefusal s b.start b.regs.length true = none)
    (h : Made (wordWrites s (blockWords s b)) s t)

theorem MadeBy.nothing {i : Instr} {s t : State} (hb : t.bus = s.bus) (hm : t.mem = s.mem) (he : t.env = s.env) :
    MadeBy i s t :=
  .reads [] (List.forall_mem_nil _) (.nil hb hm he)

/-- What advances from a state that made no access makes none. -/
theorem MadeBy.of_advance {i : Instr} {s u t : State} (h : advance u = .next t) (hb : u.bus = s.bus) (hm : u.mem = s.mem)
    (he : u.env = s.env) : MadeBy i s t :=
  .reads [] (List.forall_mem_nil _) ((Made.nil hb hm he).advance h)

theorem dataProcess_made {i : Instr} {op : AluOp} {sf : Bool} {a : Word} {rd : Reg} {o : Shifted} {s t : State}
    (h : dataProcess op sf a rd o s = .next t) : MadeBy i s t := by
  obtain ⟨-, -, hr⟩ | ⟨-, -, rfl⟩ | ⟨-, ha⟩ := dataProcess_next h
  · obtain ⟨w, p, -, -, ⟨-, rfl⟩ | ⟨-, -, rfl⟩ | ⟨-, -, -, rfl⟩⟩ := exceptionReturn_next hr <;> exact .nothing rfl rfl rfl
  · exact .nothing rfl rfl rfl
  · exact .of_advance ha (by simp) (by simp) (by simp)

theorem finishMul_made {i : Instr} {sf : Bool} {rd : Reg} {v : Word} {s t : State} (h : finishMul sf rd v s = .next t) :
    MadeBy i s t := by
  unfold finishMul at h
  simp only at h
  split at h <;> exact .of_advance h (by simp) (by simp) (by simp)

theorem finishMulLong_made {i : Instr} {sf : Bool} {hi lo : Reg} {v : BitVec 64} {s t : State}
    (h : finishMulLong sf hi lo v s = .next t) : MadeBy i s t := by
  unfold finishMulLong at h
  simp only at h
  split at h <;> exact .of_advance h (by simp) (by simp) (by simp)

theorem Effect.made {s t : State} {i : Instr} {r : Result} (he : Effect s i r) (hr : r = .next t) : MadeBy i s t := by
  cases he with
  | dataProcess => exact dataProcess_made hr
  | compare => exact .of_advance hr rfl rfl rfl
  | thumbAlu => exact .of_advance hr (by simp) (by simp) (by simp)
  | thumbCompare => exact .of_advance hr rfl rfl rfl
  | readPsr =>
    obtain ⟨w, ha⟩ := readPsr_next hr
    exact .of_advance ha (by simp) (by simp) (by simp)
  | writePsr =>
    obtain ⟨-, q, ha⟩ | ⟨-, p, -, ha⟩ := writePsr_next hr <;> exact .of_advance ha rfl rfl rfl
  | multiply => exact finishMul_made hr
  | multiplyLong => exact finishMulLong_made hr
  | load =>
    obtain ⟨x, hx, h⟩ := loadSingle_made hr
    exact .reads [x] (by simp [hx]) h
  | store hi =>
    obtain ⟨x, h⟩ := storeSingle_made hr
    exact .store (by simp [hi]) x h
  | swap hi =>
    obtain ⟨x, hx, h | ⟨y, h⟩⟩ := swap_made hr
    · exact .reads [x] (by simp [hx]) h
    · exact .swap (by simp [hi]) x y hx h
  | blockLoad =>
    split at hr
    · obtain ⟨l, hl, h⟩ := blockLoad_made hr
      exact .reads l hl h
    · cases hr
  | blockStore why hi =>
    split at hr
    · obtain ⟨hn, h⟩ := blockStore_made hr
      exact .blockStore _ hi hn h
    · cases hr
  | trap =>
    cases hr
    exact .nothing rfl rfl rfl
  | exchange =>
    obtain ⟨-, rfl⟩ | ⟨-, -, rfl⟩ := branchExchange_next hr <;> exact .nothing rfl rfl rfl
  | high =>
    obtain rfl | ha := writeHigh_next hr
    · exact .nothing rfl rfl rfl
    · exact .of_advance ha (by simp) (by simp) (by simp)
  | setReg => exact .of_advance hr (by simp) (by simp) (by simp)
  | condBranch =>
    obtain rfl | ha := branchIf_next hr
    · exact .nothing rfl rfl rfl
    · exact .of_advance ha rfl rfl rfl
  | branch =>
    cases hr
    exact .nothing rfl rfl rfl
  | branchLink =>
    cases hr
    exact .nothing (by simp) (by simp) (by simp)

theorem exec_made {i : Instr} {s t : State} (h : exec i s = .next t) : MadeBy i s t := by
  obtain ha | he := exec_next h
  · exact .of_advance ha rfl rfl rfl
  · exact he.made rfl

end Sys2Proof.Machine
end

section
/-! The invariant: memory in its canonical form, by the accesses replayed, and the pc aligned, by the ways an instruction ends. -/

namespace Sys2Proof.Machine

open Sys2Proof.Claims

/-- The alignment of the pc depends on the pc and T alone. -/
theorem pcAligned_congr {s u : State} (hpc : u.pc = s.pc) (ht : u.cpsr.t = s.cpsr.t) : pcAligned u = pcAligned s := by
  simp only [pcAligned, fetchSize, hpc, ht]

theorem pcAligned_of_word {s : State} (h : wordAligned s.pc = true) : pcAligned s = true :=
  pcAligned_iff.mpr (aligned_of_word s h)

theorem pcAligned_of_half {s : State} (ht : s.cpsr.t = true) (h : halfAligned s.pc = true) : pcAligned s = true :=
  pcAligned_iff.mpr (aligned_of_half ht h)

theorem advance_pcAligned {s t : State} (h : advance s = .next t) (hs : pcAligned s = true) : pcAligned t = true := by
  obtain ⟨hroom, rfl⟩ := advance_next h
  rw [room_iff] at hroom
  cases ht : s.cpsr.t with
  | false =>
    rw [pcAligned_arm ht] at hs
    have hb : (instrBytes s).toNat = 4 := by simp [instrBytes, ht]
    refine (pcAligned_arm (s := { s with pc := s.pc + instrBytes s }) ht).mpr ?_
    rw [BitVec.toNat_add, hb]
    omega
  | true =>
    rw [pcAligned_thumb ht] at hs
    have hb : (instrBytes s).toNat = 2 := by simp [instrBytes, ht]
    refine (pcAligned_thumb (s := { s with pc := s.pc + instrBytes s }) ht).mpr ?_
    rw [BitVec.toNat_add, hb]
    omega

theorem branchExchange_pcAligned {a : Word} {s t : State} (h : branchExchange a s = .next t) : pcAligned t = true := by
  obtain ⟨-, rfl⟩ | ⟨-, ha, rfl⟩ := branchExchange_next h
  · exact pcAligned_of_half rfl (halfAligned_halfMask a)
  · exact pcAligned_of_word ha

theorem exceptionReturn_pcAligned {m : Bool} {a : Word} {s t : State} (h : exceptionReturn m a s = .next t) :
    pcAligned t = true := by
  obtain ⟨w, p, -, -, ⟨ht, rfl⟩ | ⟨-, -, rfl⟩ | ⟨-, -, ha, rfl⟩⟩ := exceptionReturn_next h
  · exact pcAligned_of_half ht (halfAligned_halfMask a)
  · exact pcAligned_of_word (wordAligned_wordMask a)
  · exact pcAligned_of_word ha

theorem Exc.vector_aligned (e : Exc) : wordAligned e.vector = true := by
  cases e <;> decide

theorem enterException_pcAligned (e : Exc) (ret : Word) (s : State) : pcAligned (enterException e ret s) = true :=
  pcAligned_of_word e.vector_aligned

/-- An instruction of the processor's state keeps the pc aligned. -/
theorem ExecEnd.pcAligned {i : Instr} {s t : State} (h : ExecEnd i s t) (hi : InState i s)
    (hs : Machine.pcAligned s = true) : Machine.pcAligned t = true := by
  cases h with
  | advanced hu h => exact advance_pcAligned h (pcAligned_congr hu.pc hu.thumb ▸ hs)
  | branched hu a ha h =>
    have hsize : fetchSize t = fetchSize s := by rw [fetchSize, h, branchTo_cpsr, hu.thumb, fetchSize]
    rw [pcAligned_iff, hsize, h]
    exact ha hi hs
  | exchanged _ a h => exact branchExchange_pcAligned h
  | wroteCpsr _ mask v h =>
    obtain ⟨p, hp, -, ha⟩ := writeCpsr_next h
    exact advance_pcAligned ha ((pcAligned_congr (s := s) (u := { s with cpsr := p }) rfl hp).trans hs)
  | wroteSpsr _ mask v h =>
    obtain ⟨w, -, ha⟩ := writeSpsr_next h
    exact advance_pcAligned ha hs
  | returned _ _ m a h => exact exceptionReturn_pcAligned h
  | trapped e _ h => exact h ▸ enterException_pcAligned e _ _
  | aborted _ _ _ h => exact h ▸ enterException_pcAligned .dataAbort _ _

/-- Memory after an instruction is what its accesses left. -/
theorem MadeBy.replays {i : Instr} {s t : State} (h : MadeBy i s t) : ∃ l, Made l s t := by
  cases h with
  | reads l _ h => exact ⟨l, h⟩
  | store _ x h => exact ⟨_, h⟩
  | swap _ x y _ h => exact ⟨_, h⟩
  | blockStore b _ _ h => exact ⟨_, h⟩

theorem exec_wf {i : Instr} {s t : State} (h : exec i s = .next t) (hs : s.mem.wf = true) : t.mem.wf = true := by
  obtain ⟨l, hl⟩ := (exec_made h).replays
  exact hl.mem ▸ foldl_replay_wf l hs

theorem takeReset_inv {s : State} (h : s.mem.wf = true) : Inv (takeReset s) := ⟨h, pcAligned_of_word rfl⟩

/-- Settles O57: at reset memory lists nothing and the pc is 0. -/
theorem invAtReset : Obligations.InvAtReset := ⟨reset_mem_wf, pcAligned_of_word rfl⟩

/-- Settles O58: a reset and an entry leave the pc at a vector and memory as it was, an abandoned step leaves what its accesses stored,
and an instruction keeps both. -/
theorem invKept : Obligations.InvKept := by
  rintro s t ⟨hwf, hpc⟩ h
  cases step_end h with
  | reset _ h => exact h ▸ takeReset_inv hwf
  | abandoned n _ u h => exact h ▸ takeReset_inv (abandon_wf n (s := beginStep s) u hwf)
  | entered e u hu h => exact h ▸ ⟨hu.mem ▸ hwf, enterException_pcAligned e _ u⟩
  | ran i u _ hu hi h =>
    exact ⟨exec_wf h (hu.mem ▸ hwf), (exec_end h).pcAligned hi (pcAligned_congr hu.pc (congrArg Psr.t hu.cpsr) ▸ hpc)⟩

end Sys2Proof.Machine
end

section
/-! A reset: what it leaves at a boundary, and, in the middle of a step, what the accesses made so far have left in memory
(70_reset_and_hazards R522). -/

namespace Sys2Proof.Machine

open Sys2Proof.Claims

/-! ## The words of a block store, one by one -/

theorem storeWords_append (s : State) (l l' : List (Word × Word)) :
    storeWords s (l ++ l') = storeWords (storeWords s l) l' := by
  induction l generalizing s with
  | nil => rfl
  | cons x l ih => exact ih _

/-- A store of the word `x` leaves the byte at `a`: the platform aborts it, or it is aligned and `a` is none of its bytes. -/
def Spares (s : State) (a : Nat) (x : Word × Word) : Prop :=
  abortsData s x.1 .word s.cpsr.mode.privileged true = true ∨ (wordAligned x.1 = true ∧ outside a x.1 4 = true)

theorem writeMem_read_outside {s : State} {a : Nat} {x : Word} (v : Word) (hx : wordAligned x = true) (ha : outside a x 4 = true) :
    (writeMem s x .word v).mem.read a = s.mem.read a := by
  unfold writeMem
  split
  · rfl
  · exact memWrite_read_outside (size := .word) _ _ _ (by simp [misaligned, hx]) (by simpa [outside, Size.bytes] using ha)

theorem storeWords_spares {s : State} {a : Nat} {l : List (Word × Word)} (h : ∀ x ∈ l, Spares s a x) :
    (storeWords s l).mem.read a = s.mem.read a := by
  induction l generalizing s with
  | nil => rfl
  | cons x l ih =>
    obtain ⟨hx, hl⟩ := List.forall_mem_cons.mp h
    simp only [storeWords]
    split
    · exact ih hl
    · rename_i hab
      obtain ⟨hal, ho⟩ := hx.resolve_left hab
      rw [ih fun y hy => ?_]
      · exact writeMem_read_outside _ hal ho
      · simpa [Spares, abortsData] using hl y hy

theorem blockWords_length (s : State) (b : Block) : (blockWords s b).length = b.regs.length := by
  simp [blockWords, blockAddrs_eq]

theorem blockWords_addr {s : State} {b : Block} {k : Nat} (hk : k < (blockWords s b).length) :
    ((blockWords s b)[k]).1 = b.addr k := by
  simp [blockWords, blockAddrs_eq, Block.addr]

/-- A block that is not refused does not wrap, and is aligned but where the platform aborts all of it. -/
theorem blockRefusal_eq_none {s : State} {b : Block} (h : blockRefusal s b.start b.regs.length true = none) :
    b.start.toNat + 4 * b.regs.length ≤ 2 ^ 32 ∧
    (wordAligned b.start = true ∨
      ∀ k, k < b.regs.length → abortsData s (b.addr k) .word s.cpsr.mode.privileged true = true) := by
  unfold blockRefusal at h
  split at h
  · cases h
  · rename_i hw
    refine ⟨by simpa [blockWraps] using hw, ?_⟩
    split at h
    · cases h
    · rename_i ha
      by_cases hs : wordAligned b.start = true
      · exact .inl hs
      · refine .inr fun k hk => ?_
        simp only [blockAddrs_eq, Bool.and_eq_true, Bool.not_eq_true', not_and, Bool.not_eq_false, List.all_eq_true] at ha
        exact ha (by simpa using hs) _ (List.mem_map.mpr ⟨k, List.mem_range.mpr hk, rfl⟩)

theorem toNat_blockAddr {b : Block} (hw : b.start.toNat + 4 * b.regs.length ≤ 2 ^ 32) {k : Nat} (hk : k < b.regs.length) :
    (b.addr k).toNat = b.start.toNat + 4 * k := by
  rw [Block.addr, BitVec.toNat_add, BitVec.toNat_ofNat]
  omega

/-- A word of a block that is not refused spares every byte outside it. -/
theorem blockWord_spares {s : State} {b : Block} (h : blockRefusal s b.start b.regs.length true = none) {k a : Nat}
    (hk : k < (blockWords s b).length) (ha : outside a (b.addr k) 4 = true) : Spares s a (blockWords s b)[k] := by
  obtain ⟨hw, hal⟩ := blockRefusal_eq_none h
  have hk' : k < b.regs.length := blockWords_length s b ▸ hk
  rw [Spares, blockWords_addr hk]
  refine hal.symm.imp (fun hab => hab k hk') fun hst => ⟨?_, ha⟩
  rw [wordAligned_iff] at hst ⊢
  rw [toNat_blockAddr hw hk']
  omega

/-- The words of a block do not overlap. -/
theorem blockWords_disjoint {b : Block} (hw : b.start.toNat + 4 * b.regs.length ≤ 2 ^ 32) {j k a : Nat} (hj : j < b.regs.length)
    (hk : k < b.regs.length) (hjk : j ≠ k) (ha : outside a (b.addr k) 4 = false) : outside a (b.addr j) 4 = true := by
  simp only [outside, Bool.or_eq_false_iff, Bool.or_eq_true, decide_eq_false_iff_not, decide_eq_true_eq, toNat_blockAddr hw hj,
    toNat_blockAddr hw hk] at ha ⊢
  omega

theorem outside_of_block {b : Block} (hw : b.start.toNat + 4 * b.regs.length ≤ 2 ^ 32) {k a : Nat} (hk : k < b.regs.length)
    (ha : outside a b.start (4 * b.regs.length) = true) : outside a (b.addr k) 4 = true := by
  simp only [outside, Bool.or_eq_true, decide_eq_true_eq, toNat_blockAddr hw hk] at ha ⊢
  omega

/-- After the first `n` words of a block store, the byte `a` of word `k` is as after all of them if `k < n`, else as before. -/
theorem storeWords_take_read {s : State} {b : Block} (h : blockRefusal s b.start b.regs.length true = none) (n : Nat) {k a : Nat}
    (hk : k < b.regs.length) (ha : outside a (b.addr k) 4 = false) :
    (storeWords s ((blockWords s b).take n)).mem.read a =
      if k < n then (storeWords s (blockWords s b)).mem.read a else s.mem.read a := by
  have others : ∀ j (hj : j < (blockWords s b).length), j ≠ k → Spares s a (blockWords s b)[j] := fun j hj hjk =>
    blockWord_spares h hj (blockWords_disjoint (blockRefusal_eq_none h).1 (blockWords_length s b ▸ hj) hk hjk ha)
  split
  · rename_i hkn
    conv_rhs => rw [← List.take_append_drop n (blockWords s b), storeWords_append]
    refine (storeWords_spares fun x hx => ?_).symm
    obtain ⟨j, hj, rfl⟩ := List.mem_drop_iff_getElem.mp hx
    simpa [Spares, abortsData] using others (n + j) (by omega) (by omega)
  · rename_i hkn
    refine storeWords_spares fun x hx => ?_
    obtain ⟨j, hj, rfl⟩ := List.mem_take_iff_getElem.mp hx
    exact others j (by omega) (by omega)

theorem storeWords_take_read_outside {s : State} {b : Block} (h : blockRefusal s b.start b.regs.length true = none) (n : Nat) {a : Nat}
    (ha : outside a b.start (4 * b.regs.length) = true) :
    (storeWords s ((blockWords s b).take n)).mem.read a = s.mem.read a := by
  refine storeWords_spares fun x hx => ?_
  obtain ⟨j, hj, rfl⟩ := List.mem_take_iff_getElem.mp hx
  have hj' : j < (blockWords s b).length := by omega
  exact blockWord_spares h hj' (outside_of_block (blockRefusal_eq_none h).1 (blockWords_length s b ▸ hj') ha)

/-! ## Memory after an abandoned step -/

/-- Nothing but reads is on the bus where no instruction ran. -/
theorem fetch_taken_reads {s v : State} (h : fetch s = .taken v) : ∀ x ∈ v.bus, x.dout = none := by
  obtain ⟨-, rfl⟩ | ⟨e, u, hu, rfl⟩ := fetch_taken h
  · exact (Begun.beginStep s).reads
  · exact hu.reads

theorem abandon_taken {s v : State} (h : fetch s = .taken v) (n : Nat) : (abandon n (beginStep s) v).mem = s.mem := by
  rw [abandon_mem, foldl_replay_reads _ _ fun x hx => fetch_taken_reads h x (List.mem_of_mem_take hx), beginStep_mem]

/-- Where an instruction ran, an abandoned step has in memory what the first `n` of its accesses left. -/
theorem abandon_run {s v t : State} {i : Instr} {l : List Access} (hf : fetch s = .run i v) (h : Made l v t) (n : Nat) :
    (abandon n (beginStep s) t).mem = ((l.take n).foldl replay v).mem := by
  obtain ⟨hv, -, x, hb, hx⟩ := fetch_run hf
  rw [abandon_mem, h.bus, hb, List.singleton_append, List.take_succ_cons, List.foldl_cons, replay_read _ hx]
  exact foldl_replay_mem_congr _ hv.mem.symm hv.env.symm

/-- A swap stores nothing else, and a block store is no single store. -/
theorem swapOf_excludes {i : Instr} {s : State} (hi : (swapOf i).isSome = true) :
    storeOf s i = none ∧ blockStoreOf s i = none := by
  cases i <;> cases hi <;> exact ⟨rfl, rfl⟩

theorem blockStoreOf_excludes {i : Instr} {s : State} {b : Block} (hi : blockStoreOf s i = some b) : storeOf s i = none := by
  cases i <;> cases hi <;> rfl

section Abandoned

variable {s v t : State} {i : Instr} (hf : fetch s = .run i v) (he : exec i v = .next t) (n : Nat)
include hf

/-- Accesses that only read leave memory as it was, abandoned or not. -/
theorem abandon_reads {l : List Access} (hl : ∀ x ∈ l, x.dout = none) (h : Made l v t) :
    (abandon n (beginStep s) t).mem = s.mem ∧ t.mem = s.mem := by
  have hv := (fetch_run hf).1.mem
  rw [abandon_run hf h n, foldl_replay_reads _ _ fun x hx => hl x (List.mem_of_mem_take hx), h.mem, foldl_replay_reads _ _ hl]
  exact ⟨hv, hv⟩

include he

theorem abandon_nothing (hi : storesMem i v = false) : (abandon n (beginStep s) t).mem = s.mem := by
  simp only [storesMem, Bool.or_eq_false_iff, Option.isSome_eq_false_iff, Option.isNone_iff_eq_none] at hi
  cases exec_made he with
  | reads l hl h => exact (abandon_reads hf n hl h).1
  | store hs => simp [hi] at hs
  | swap hs => simp [hi] at hs
  | blockStore b hs => simp [hi] at hs

theorem abandon_store {x : Xfer} (hi : storeOf v i = some x) :
    (abandon n (beginStep s) t).mem = if n = 0 then s.mem else t.mem := by
  cases exec_made he with
  | reads l hl h =>
    obtain ⟨hm, ht⟩ := abandon_reads hf n hl h
    rw [hm, ht, ite_self]
  | store _ y h =>
    rw [abandon_run hf h n, h.mem, ← (fetch_run hf).1.mem]
    cases n <;> simp
  | swap hs => exact absurd (hi.symm.trans (swapOf_excludes hs).1) nofun
  | blockStore b hs => exact absurd (hi.symm.trans (blockStoreOf_excludes hs)) nofun

theorem abandon_swap {x : Size × Reg × Reg × Reg} (hi : swapOf i = some x) :
    (abandon n (beginStep s) t).mem = if n ≤ 1 then s.mem else t.mem := by
  obtain ⟨hstore, hblock⟩ := swapOf_excludes (i := i) (s := v) (by simp [hi])
  cases exec_made he with
  | reads l hl h =>
    obtain ⟨hm, ht⟩ := abandon_reads hf n hl h
    rw [hm, ht, ite_self]
  | store hs => simp [hstore] at hs
  | swap _ y z hy h =>
    rw [abandon_run hf h n, h.mem, ← (fetch_run hf).1.mem]
    match n with
    | 0 => rfl
    | 1 => exact congrArg State.mem (replay_read v hy)
    | k + 2 => simp
  | blockStore b hs => simp [hblock] at hs

/-- A block store that is abandoned has stored its first `n` words. -/
theorem abandon_blockStore {b : Block} (hi : blockStoreOf v i = some b) :
    (∀ k a, k < b.regs.length → outside a (b.addr k) 4 = false →
      (abandon n (beginStep s) t).mem.read a = if k < n then t.mem.read a else s.mem.read a) ∧
    (∀ a, outside a b.start (4 * b.regs.length) = true → (abandon n (beginStep s) t).mem.read a = s.mem.read a) := by
  cases exec_made he with
  | reads l hl h =>
    obtain ⟨hm, ht⟩ := abandon_reads hf n hl h
    exact ⟨fun k a _ _ => by rw [hm, ht, ite_self], fun a _ => by rw [hm]⟩
  | store hs => simp [blockStoreOf_excludes hi] at hs
  | swap hs => exact absurd (hi.symm.trans (swapOf_excludes hs).2) nofun
  | blockStore b' hb hr h =>
    obtain rfl : b = b' := Option.some.inj (hi.symm.trans hb)
    have htake : (abandon n (beginStep s) t).mem = (storeWords v ((blockWords v b).take n)).mem := by
      rw [abandon_run hf h n, (storeWords_made v _).mem, wordWrites, wordWrites, List.map_take]
    have ht : t.mem = (storeWords v (blockWords v b)).mem := h.mem.trans (storeWords_made v _).mem.symm
    rw [htake, ht, ← (fetch_run hf).1.mem]
    exact ⟨fun k a hk ha => storeWords_take_read hr n hk ha, fun a ha => storeWords_take_read_outside hr n ha⟩

end Abandoned

/-! ## The reset -/

theorem takeReset_get_ne (s : State) {p : Phys} (hp : p ≠ .r14Svc) : (takeReset s).regs.get p = s.regs.get p :=
  Regs.get_set_ne _ _ hp

theorem takeReset_spsr_ne (s : State) {m : Mode} (hm : m ≠ .svc) : (takeReset s).spsrs.get m = s.spsrs.get m :=
  Spsrs.get_set_ne s.spsrs _ hm

/-- Settles O47: the reset's own effect, what an abandoned step mixes of the old and the new, and memory by the accesses made. -/
theorem resetLeaves : Obligations.ResetLeaves := by
  refine ⟨⟨rfl, rfl, rfl, rfl, rfl, rfl, rfl⟩, fun s => ?_, fun s t n hr hn hw => ?_⟩
  · exact ⟨afterReset_takeReset s, fun p => takeReset_get_ne s, fun m => takeReset_spsr_ne s, rfl, rfl, rfl⟩
  · refine ⟨_, step_abandoned hw hr hn, afterReset_takeReset _, ?_, fun p hp => ?_, fun m hm => ?_, ?_, fun v hf => ?_,
      fun i v hf => ?_⟩
    · rw [takeReset_env, abandon_env, beginStep_env]
    · rw [takeReset_get_ne _ hp]
      exact mixRegs_get _ _ _ p
    · rw [takeReset_spsr_ne _ hm]
      exact mixSpsrs_get _ _ _ m
    · refine (pick_cases t.draws 35 s.cpsr t.cpsr).imp (fun hc => ?_) fun hc => ?_ <;>
        rw [takeReset_cpsr, abandon_cpsr, beginStep_cpsr, hc]
    · obtain rfl : v = t := Host.Outcome.next.inj (by rw [← hw, wholeStep, hf])
      exact abandon_taken hf n
    · have he : exec i v = .next t := by rw [← hw, wholeStep, hf]
      exact ⟨abandon_nothing hf he n, fun x => abandon_store hf he n, fun x => abandon_swap hf he n,
        fun b => abandon_blockStore hf he n⟩

end Sys2Proof.Machine
end

section
/-! The restrictions: the machine's restriction functions against the rules spelled out form by form (Claims/Restrictions.lean). -/

namespace Sys2Proof.Machine

open Sys2Proof.Claims

/-! ## Register lists -/

theorem mem_allRegs : ∀ r : Reg, r ∈ allRegs := by decide

theorem mem_regsOf {n : Nat} {list : BitVec n} {r : Reg} : r ∈ regsOf list ↔ listed list r = true := by
  simp [regsOf, mem_allRegs, inList, listed]

theorem allRegs_eq_range : allRegs = (List.range 16).map (BitVec.ofNat 4) := rfl

/-- A listed register is the lowest where no register below it is listed. -/
theorem isLowest_eq {n : Nat} {list : BitVec n} {r : Reg} (h : inList list r = true) :
    isLowest list r = !lowerListed list r := by
  have hr : BitVec.ofNat 4 r.toNat = r := by simp
  have number : ∀ k, k < 16 → (BitVec.ofNat 4 k).toNat = k := fun k hk => by
    rw [BitVec.toNat_ofNat, Nat.mod_eq_of_lt hk]
  rw [Bool.eq_iff_iff]
  simp only [isLowest, regsOf, List.head?_filter, allRegs_eq_range, List.find?_map, beq_iff_eq, Option.map_eq_some_iff,
    List.find?_range_eq_some, Function.comp_apply, List.mem_range, lowerListed, Bool.not_eq_true', List.any_eq_false,
    Bool.not_eq_true, inList]
  constructor
  · rintro ⟨k, ⟨-, hk, hlow⟩, rfl⟩ j hj
    rw [number k hk] at hj
    rw [← number j (by omega), hlow j hj]
  · intro hlow
    have hlt : r.toNat < 16 := r.isLt
    refine ⟨r.toNat, ⟨by rw [hr]; exact h, hlt, fun j hj => ?_⟩, hr⟩
    rw [number j (by omega), hlow j hj]

/-! ## Each rule -/

@[simp] theorem firstBroken_isSome (l : List (Bool × Restriction)) : (firstBroken l).isSome = l.any Prod.fst := by
  induction l with
  | nil => rfl
  | cons x l ih =>
    obtain ⟨b, why⟩ := x
    cases b
    · simpa [firstBroken] using ih
    · rfl

theorem hasPc_eq_usesR15 (l : List Reg) : hasPc l = usesR15 l := by
  simp [hasPc, usesR15]

theorem usesR15_perm {l l' : List Reg} (h : l.Perm l') : usesR15 l = usesR15 l' :=
  decide_eq_decide.mpr h.mem_iff

theorem pcRule_isSome (l : List Reg) : (pcRule l).isSome = usesR15 l := by
  simp [pcRule, hasPc_eq_usesR15]

theorem pcRule_one_isSome (r : Reg) : (pcRule [r]).isSome = (r == 15) := by
  simp [pcRule_isSome, usesR15, eq_comm, Bool.beq_eq_decide_eq]

/-- The fields of a multiply that are not Rd or Rm may stand between them. -/
theorem mulRule_isSome (rd rm : Reg) (l : List Reg) :
    (mulRule rd rm l).isSome = (usesR15 (rd :: l.reverse ++ [rm]) || rd == rm) := by
  have hperm : (rd :: rm :: l).Perm (rd :: l.reverse ++ [rm]) :=
    (((List.reverse_perm l).symm.cons rm).trans (List.perm_append_singleton rm _).symm).cons rd
  simp only [mulRule, firstBroken_isSome, List.any_cons, List.any_nil, Bool.or_false, hasPc_eq_usesR15, usesR15_perm hperm]

theorem mulLongRule_isSome (hi lo rs rm : Reg) :
    (mulLongRule hi lo rs rm).isSome = (usesR15 [hi, lo, rs, rm] || hi == lo || hi == rm || lo == rm) := by
  simp [mulLongRule, hasPc_eq_usesR15, Bool.or_assoc]

theorem swapRule_isSome (rn rd rm : Reg) : (swapRule rn rd rm).isSome = (usesR15 [rn, rd, rm] || rn == rd || rn == rm) := by
  simp [swapRule, hasPc_eq_usesR15, Bool.or_assoc]

theorem singleImmRule_isSome (pcOk wb post : Bool) (rn rd : Reg) :
    (singleImmRule pcOk wb rn rd).isSome = transferBreaks pcOk wb post rn rd none := by
  simp [singleImmRule, transferBreaks, Bool.and_or_distrib_left, Bool.and_comm]

theorem singleRegRule_isSome (pcOk post wb : Bool) (rn rd rm : Reg) :
    (singleRegRule pcOk post wb rn rd rm).isSome = transferBreaks pcOk wb post rn rd (some rm) := by
  rw [Bool.eq_iff_iff]
  simp [singleRegRule, transferBreaks]
  tauto

theorem halfImmRule_isSome (p w : Bool) (rn rd : Reg) : (halfImmRule p w rn rd).isSome = halfBreaks p w rn rd none := by
  rw [Bool.eq_iff_iff]
  simp [halfImmRule, halfBreaks, transferBreaks]
  tauto

theorem halfRegRule_isSome (p w : Bool) (rn rd rm : Reg) :
    (halfRegRule p w rn rd rm).isSome = halfBreaks p w rn rd (some rm) := by
  simp [halfRegRule, halfBreaks, transferBreaks, hasPc, Bool.and_or_distrib_left, Bool.beq_eq_decide_eq, eq_comm]
  ac_rfl

theorem ldmRule_isSome (w : Bool) (rn : Reg) (list : BitVec 16) : (ldmRule w rn list).isSome = ldmBreaks w rn list := by
  simp [ldmRule, ldmBreaks, inList, listed, Bool.or_assoc]

/-- Being in the list but not its lowest register is having a lower one beside it. -/
theorem notLowest_eq {n : Nat} (list : BitVec n) (r : Reg) :
    (inList list r && !isLowest list r) = (listed list r && lowerListed list r) := by
  cases h : inList list r with
  | false => exact (congrArg (· && lowerListed list r) h).symm
  | true =>
    have hl : listed list r = true := h
    rw [isLowest_eq h, hl, Bool.not_not]

theorem stmRule_isSome (w : Bool) (rn : Reg) (list : BitVec 16) : (stmRule w rn list).isSome = stmBreaks w rn list := by
  simp only [stmRule, stmBreaks, firstBroken_isSome, List.any_cons, List.any_nil, Bool.or_false, Bool.and_assoc, notLowest_eq,
    Bool.or_assoc]

theorem userBankRule_isSome {n : Nat} (w : Bool) (rn : Reg) (list : BitVec n) :
    (userBankRule w rn list).isSome = (list == 0 || rn == 15 || w) := by
  simp [userBankRule, Bool.or_assoc]

theorem stackRule_isSome (r : Bool) (list : BitVec 8) : (stackRule r list).isSome = (!r && list == 0) := by
  simp [stackRule]

theorem thumbMulRule_isSome (rs rd : LoReg) : (thumbMulRule rs rd).isSome = (rs == rd) := by
  simp [thumbMulRule]

theorem stmiaRule_isSome (rb : LoReg) (list : BitVec 8) : (stmiaRule rb list).isSome = stmBreaks true (lo rb) list := by
  have hpc : (lo rb == 15#4) = false := beq_false_of_ne (lo_ne_pc rb)
  simp [stmiaRule, stmBreaks, notLowest_eq, hpc]

theorem ldmiaRule_isSome (rb : LoReg) (list : BitVec 8) : (ldmiaRule rb list).isSome = ldmBreaks true (lo rb) list := by
  have hpc : (lo rb == 15#4) = false := beq_false_of_ne (lo_ne_pc rb)
  simp [ldmiaRule, ldmBreaks, inList, listed, hpc]

theorem coprocRule_isSome (cp : BitVec 4) : (coprocRule cp).isSome = (some cp == some 14) := by
  simp [coprocRule]

theorem tCmpHdRule_isSome : ∀ hd : LoReg, (pcRule [hi hd]).isSome = (hd == 7) := by decide

/-- The instructions whose fields the model calls broken are those the rules describe. -/
theorem broken_isSome (i : Instr) : i.broken.isSome = breaksRule i := by
  cases i
  case andShReg | eorShReg | subShReg | rsbShReg | addShReg | adcShReg | sbcShReg | rscShReg | orrShReg | bicShReg | movShReg
      | mvnShReg | tstShReg | teqShReg | cmpShReg | cmnShReg => exact pcRule_isSome _
  case bx | mrs | msrReg => exact pcRule_one_isSome _
  case mul | mla => exact mulRule_isSome _ _ _
  case umull | umlal | smull | smlal => exact mulLongRule_isSome _ _ _ _
  case swp | swpb => exact swapRule_isSome _ _ _
  case strhReg | ldrhReg | ldrsbReg | ldrshReg => exact halfRegRule_isSome _ _ _ _ _
  case strhImm | ldrhImm | ldrsbImm | ldrshImm => exact halfImmRule_isSome _ _ _ _
  case strImmPre | strImmPost | strtImm | ldrImmPre | ldrImmPost | ldrtImm | strbImmPre | strbImmPost | strbtImm | ldrbImmPre
      | ldrbImmPost | ldrbtImm => exact singleImmRule_isSome _ _ _ _ _
  case strRegPre | strRegPost | strtReg | ldrRegPre | ldrRegPost | ldrtReg | strbRegPre | strbRegPost | strbtReg | ldrbRegPre
      | ldrbRegPost | ldrbtReg => exact singleRegRule_isSome _ _ _ _ _ _
  case ldm | ldmRet => exact ldmRule_isSome _ _ _
  case stm => exact stmRule_isSome _ _ _
  case ldmUser | stmUser => exact userBankRule_isSome _ _ _
  case stc | ldc | cdp | mcr | mrc => exact coprocRule_isSome _
  case tPush | tPop => exact stackRule_isSome _ _
  case tStmia => exact stmiaRule_isSome _ _
  case tLdmia => exact ldmiaRule_isSome _ _
  case tMul => exact thumbMulRule_isSome _ _
  case tCmpHd hd rs => exact tCmpHdRule_isSome hd
  all_goals rfl

end Sys2Proof.Machine
end

section
/-! Running off the top: an instruction that nothing else stops, and that gives the pc no value of its own, is refused where the next
one would lie past the top of the address space (10_state R35). -/

namespace Sys2Proof.Machine

open Sys2Proof.Claims

/-! ## Instructions that give the pc no value of their own -/

/-- Such an instruction has no R15 among its destinations, takes no exception of its own and is no conditional branch. -/
theorem of_writesPc_eq_false {i : Instr} (h : writesPc i = false) :
    (15 : Reg) ∉ destRegs i ∧ trapOf i = none ∧ condBranchOf i = none := by
  unfold writesPc at h
  split at h
  case h_7 =>
    subst h
    exact ⟨by simp [destRegs, mem_regsOf, listed], rfl, rfl⟩
  case h_8 =>
    simp only [Bool.or_eq_false_iff, Option.isSome_eq_false_iff, Option.isNone_iff_eq_none] at h
    obtain ⟨⟨hd, ht⟩, hc⟩ := h
    exact ⟨by simpa using hd, ht, hc⟩
  all_goals cases h

theorem writesPc_of_bxOf {s : State} {i : Instr} {a : Word} (hi : bxOf s i = some a) : writesPc i = true := by
  cases i <;> cases hi <;> rfl

theorem writesPc_of_isBranch {i : Instr} (hi : isBranch i = true) : writesPc i = true := by
  cases i <;> cases hi <;> rfl

theorem writesPc_of_isBranchLink {i : Instr} (hi : isBranchLink i = true) : writesPc i = true := by
  cases i <;> cases hi <;> rfl

/-- Such a block load does not load R15. -/
theorem pc_not_mem_blockLoad {s : State} {i : Instr} {b : Block} (hi : blockLoadOf s i = some b) (h : writesPc i = false) :
    (15 : Reg) ∉ b.regs := by
  obtain ⟨hd, -, -⟩ := of_writesPc_eq_false h
  cases i <;> cases hi
  case ldm => exact fun hm => hd (List.mem_append_left _ hm)
  case ldmRet => exact fun hm => hd (List.mem_append_left _ hm)
  case ldmUser => simp [userBlock, mem_regsOf, listed]
  case tPop r list =>
    obtain rfl : r = false := h
    simp [upBlock, mem_regsOf, listed]
  case tLdmia => simp [upBlock, mem_regsOf, listed]

/-! ## Instructions that nothing obstructs -/

/-- What the claim's test says of each shape of instruction. -/
structure Clear (i : Instr) (s : State) : Prop where
  bank : bankOk i s = true
  load : ∀ x, loadOf s i = some x → accessible s x.loc.addr x.kind.size x.priv false = true
  store : ∀ x, storeOf s i = some x → accessible s x.loc.addr x.kind.size x.priv true = true
  blockLoad : ∀ b, blockLoadOf s i = some b → b.fits = true ∧ b.aborts s false = false
  blockStore : ∀ b, blockStoreOf s i = some b → b.fits = true ∧ b.aborts s true = false
  swap : ∀ size rn rd rm, swapOf i = some (size, rn, rd, rm) →
    accessible s (readReg s rn) size s.cpsr.mode.privileged false = true ∧
    accessible s (readReg s rn) size s.cpsr.mode.privileged true = true
  msrSpsr : ∀ mask v, msrOf s i = some (true, mask, v) → (s.spsrs.get s.cpsr.mode).isSome = true
  msrCpsr : ∀ mask v, msrOf s i = some (false, mask, v) → keepsControl s mask v = true
  mrsSpsr : ∀ c rd, i = .mrs c true rd → (s.spsrs.get s.cpsr.mode).isSome = true

theorem clear_of_unobstructed {i : Instr} {s : State} (h : unobstructed i s = true) : Clear i s := by
  unfold unobstructed at h
  simp only [Bool.and_eq_true] at h
  obtain ⟨⟨⟨⟨⟨⟨⟨bank, load⟩, store⟩, blockLoad⟩, blockStore⟩, swap⟩, msr⟩, mrs⟩ := h
  constructor
  · exact bank
  · exact fun x hx => by simpa [hx] using load
  · exact fun x hx => by simpa [hx] using store
  · exact fun x hx => by simpa [hx] using blockLoad
  · exact fun x hx => by simpa [hx] using blockStore
  · exact fun size rn rd rm hx => by simpa [hx] using swap
  · exact fun mask v hx => by simpa [hx] using msr
  · exact fun mask v hx => by simpa [hx] using msr
  · rintro c rd rfl
    exact mrs

theorem accessible_iff {s : State} {a : Word} {size : Size} {priv write : Bool} :
    accessible s a size priv write = true ↔ abortsData s a size priv write = false ∧ misaligned a size = false := by
  simp [accessible, abortsData]

/-! ## The operations at the top of the address space -/

/-- There is no next instruction from a state with the same pc and T. -/
theorem advance_off_top {s u : State} (hroom : room s = false) (hpc : u.pc = s.pc) (ht : u.cpsr.t = s.cpsr.t) :
    advance u = .refused .runOffTop := by
  refine advance_of_no_room ?_
  rw [← hroom]
  simp [room, instrBytes, hpc, ht]

theorem exists_ofBits_of_legalMode : ∀ {b : BitVec 5}, legalMode b = true → ∃ m, Mode.ofBits b = some m := by
  simp only [← Option.isSome_iff_exists]
  decide

/-- The low byte of a merge is one word's or the other's, so its mode bits are. -/
theorem extractLsb'_mode_mergeBytes (mask : BitVec 4) (old new : Word) :
    (mergeBytes mask old new).extractLsb' 0 5 = if mask.getLsbD 0 then new.extractLsb' 0 5 else old.extractLsb' 0 5 := by
  apply BitVec.eq_of_getLsbD_eq
  intro k hk
  rw [BitVec.getLsbD_extractLsb', Nat.zero_add, getLsbD_mergeBytes _ _ _ (by omega), Nat.div_eq_of_lt (by omega)]
  cases mask.getLsbD 0 <;> simp [hk]

theorem msrMask_bit_zero (m : Mode) (mask : BitVec 4) : (msrMask m mask).getLsbD 0 = (m != .usr && mask.getLsbD 0) := by
  cases m <;> simp [msrMask, Mode.privileged]

/-- What an MSR that keeps T and a legal mode would write has that T and a mode. -/
theorem control_of_keepsControl {s : State} {mask : BitVec 4} {v : Word} (h : keepsControl s mask v = true) :
    (mergeBytes (msrMask s.cpsr.mode mask) s.cpsr.toWord v).getLsbD 5 = s.cpsr.t ∧
    ∃ m, Mode.ofBits ((mergeBytes (msrMask s.cpsr.mode mask) s.cpsr.toWord v).extractLsb' 0 5) = some m := by
  rw [getLsbD_mergeBytes _ _ _ (by decide), extractLsb'_mode_mergeBytes, msrMask_bit_zero]
  cases hlow : s.cpsr.mode != .usr && mask.getLsbD 0
  · exact ⟨s.cpsr.toWord_t, s.cpsr.mode, by simp [Psr.toWord_mode, Mode.ofBits_bits]⟩
  · have hv : v.getLsbD 5 = s.cpsr.t ∧ legalMode (v.extractLsb' 0 5) = true := by
      simp_all [keepsControl]
    exact ⟨hv.1, exists_ofBits_of_legalMode hv.2⟩

/-- An MSR that keeps T and a legal mode is not refused for what it writes. -/
theorem writeCpsr_eq_advance {s : State} {mask : BitVec 4} {v : Word} (h : keepsControl s mask v = true) :
    ∃ p, p.t = s.cpsr.t ∧ writeCpsr mask v s = advance { s with cpsr := p } := by
  obtain ⟨ht, m, hm⟩ := control_of_keepsControl h
  simp only [writeCpsr, ht, bne_self_eq_false, Bool.false_eq_true, if_false, Psr.ofWord, hm]
  refine ⟨_, ?_, rfl⟩
  rfl

section OffTop

variable {s : State} (hroom : room s = false)
include hroom

theorem finishMul_off_top (sf : Bool) (rd : Reg) (v : Word) : finishMul sf rd v s = .refused .runOffTop := by
  cases sf <;> exact advance_off_top hroom (by simp) (by simp [setNZ])

theorem finishMulLong_off_top (sf : Bool) (hi lo : Reg) (v : BitVec 64) :
    finishMulLong sf hi lo v s = .refused .runOffTop := by
  cases sf <;> exact advance_off_top hroom (by simp) (by simp [setNZ64])

theorem dataProcess_off_top (op : AluOp) (sf : Bool) (a : Word) {rd : Reg} (o : Shifted) (hrd : rd ≠ 15) :
    dataProcess op sf a rd o s = .refused .runOffTop := by
  rw [dataProcess, if_neg hrd]
  exact advance_off_top hroom (by simp) (by cases sf <;> rfl)

theorem readPsr_off_top {spsr : Bool} (rd : Reg) (h : spsr = true → (s.spsrs.get s.cpsr.mode).isSome = true) :
    readPsr spsr rd s = .refused .runOffTop := by
  cases spsr with
  | false => exact advance_off_top hroom (by simp) (by simp)
  | true =>
    obtain ⟨w, hw⟩ := Option.isSome_iff_exists.mp (h rfl)
    simp only [readPsr, hw, if_true]
    exact advance_off_top hroom (by simp) (by simp)

theorem writeSpsr_off_top (mask : BitVec 4) (v : Word) (h : (s.spsrs.get s.cpsr.mode).isSome = true) :
    writeSpsr mask v s = .refused .runOffTop := by
  obtain ⟨w, hw⟩ := Option.isSome_iff_exists.mp h
  simp only [writeSpsr, hw]
  exact advance_off_top hroom rfl rfl

theorem writeCpsr_off_top {mask : BitVec 4} {v : Word} (h : keepsControl s mask v = true) :
    writeCpsr mask v s = .refused .runOffTop := by
  obtain ⟨p, hp, hw⟩ := writeCpsr_eq_advance h
  rw [hw]
  exact advance_off_top hroom rfl hp

theorem loadSingle_off_top {k : LoadKind} {priv : Bool} (rn : Reg) {rd : Reg} {x : Address} (hrd : rd ≠ 15)
    (h : accessible s x.addr k.size priv false = true) : loadSingle k priv rn rd x s = .refused .runOffTop := by
  obtain ⟨ha, hm⟩ := accessible_iff.mp h
  simp only [loadSingle, ha, hm, loadTo, if_neg hrd, Bool.false_eq_true, if_false]
  exact advance_off_top hroom (by simp) (by simp)

theorem storeSingle_off_top {size : Size} {priv : Bool} (rn rd : Reg) {x : Address}
    (h : accessible s x.addr size priv true = true) : storeSingle size priv rn rd x s = .refused .runOffTop := by
  obtain ⟨ha, hm⟩ := accessible_iff.mp h
  simp only [storeSingle, ha, hm, Bool.false_eq_true, if_false]
  exact advance_off_top hroom (by simp) (by simp)

theorem swap_off_top {size : Size} {rn : Reg} (rd rm : Reg)
    (hr : accessible s (readReg s rn) size s.cpsr.mode.privileged false = true)
    (hw : accessible s (readReg s rn) size s.cpsr.mode.privileged true = true) : swap size rn rd rm s = .refused .runOffTop := by
  obtain ⟨ha, hm⟩ := accessible_iff.mp hr
  simp only [swap, ha, hm, (accessible_iff.mp hw).1, Bool.false_eq_true, if_false]
  exact advance_off_top hroom (by simp) (by simp)

theorem blockLoad_off_top (e : BlockEnd) {b : Block} (hpc : (15 : Reg) ∉ b.regs) (hf : b.fits = true)
    (ha : b.aborts s false = false) : blockLoad e b.mode b.rn b.regs b.start b.wb s = .refused .runOffTop := by
  have hlookup : ∀ vs : List Word, (b.regs.zip vs).lookup 15 = none := fun vs =>
    List.lookup_eq_none_iff.mpr fun x hx => by
      rw [bne_iff_ne]
      exact fun h => hpc (h ▸ (List.of_mem_zip hx).1)
  simp only [blockLoad, blockRefusal_none s b false hf, blockAborts_eq, ha, hlookup, endBlock, Bool.false_eq_true, if_false]
  split <;> exact advance_off_top hroom (by simp) (by simp)

theorem blockStore_off_top {b : Block} (hf : b.fits = true) (ha : b.aborts s true = false) :
    blockStore b.mode b.rn b.regs b.start b.wb s = .refused .runOffTop := by
  simp only [blockStore, blockRefusal_none s b true hf, blockAborts_eq, ha, Bool.false_eq_true, if_false]
  exact advance_off_top hroom (by simp) (by simp)

/-- Every effect that nothing obstructs and that gives the pc no value of its own ends in the advance. -/
theorem Effect.off_top {i : Instr} {r : Result} (he : Effect s i r) (hw : writesPc i = false) (hc : Clear i s) :
    r = .refused .runOffTop := by
  obtain ⟨hd, htrap, hcond⟩ := of_writesPc_eq_false hw
  cases he with
  | dataProcess op c sf rn rd o hop =>
    exact dataProcess_off_top hroom op sf _ _ fun h => hd (by simp [dpInstr_dest hop, h])
  | compare => exact advance_off_top hroom rfl rfl
  | thumbAlu => exact advance_off_top hroom (by simp) rfl
  | thumbCompare => exact advance_off_top hroom rfl rfl
  | readPsr c spsr rd => exact readPsr_off_top hroom rd fun h => hc.mrsSpsr c rd (by rw [h])
  | @writePsr _ spsr mask v hi =>
    cases spsr with
    | false => exact writeCpsr_off_top hroom (hc.msrCpsr mask v hi)
    | true => exact writeSpsr_off_top hroom mask v (hc.msrSpsr mask v hi)
  | multiply => exact finishMul_off_top hroom _ _ _
  | multiplyLong => exact finishMulLong_off_top hroom _ _ _ _
  | load hi => exact loadSingle_off_top hroom _ (fun h => hd (h ▸ (loadOf_dest hi).1)) (hc.load _ hi)
  | store hi => exact storeSingle_off_top hroom _ _ (hc.store _ hi)
  | swap hi =>
    obtain ⟨hread, hwrite⟩ := hc.swap _ _ _ _ hi
    exact swap_off_top hroom _ _ hread hwrite
  | blockLoad why hi =>
    obtain ⟨hf, ha⟩ := hc.blockLoad _ hi
    rw [if_pos hc.bank]
    exact blockLoad_off_top hroom _ (pc_not_mem_blockLoad hi hw) hf ha
  | blockStore why hi =>
    obtain ⟨hf, ha⟩ := hc.blockStore _ hi
    rw [if_pos hc.bank]
    exact blockStore_off_top hroom hf ha
  | trap hi => exact absurd (htrap.symm.trans hi) nofun
  | exchange hi => exact absurd (hw.symm.trans (writesPc_of_bxOf hi)) nofun
  | high hi =>
    rw [writeHigh, if_neg fun h => hd (by simp [highOf_dest hi, h])]
    exact advance_off_top hroom (by simp) (by simp)
  | setReg => exact advance_off_top hroom (by simp) (by simp)
  | condBranch hi => exact absurd (hcond.symm.trans hi) nofun
  | branch a hi => exact absurd (hw.symm.trans (writesPc_of_isBranch hi)) nofun
  | branchLink a v hi => exact absurd (hw.symm.trans (writesPc_of_isBranchLink hi)) nofun

end OffTop

/-- An instruction whose fields break a restriction is refused by it where its condition passes. -/
theorem exec_broken {i : Instr} {s : State} {why : Restriction} (hb : i.broken = some why)
    (hc : condPassed (condOf i) s.cpsr = true) : exec i s = .refused (.operands why) := by
  obtain ⟨r, -, hx⟩ := exec_effect i s
  rw [hx, conditional_broken hc hb]

/-- Settles O42: the restriction functions are the rules spelled out, a broken one is what exec answers, and an effect that nothing
obstructs ends in the advance. -/
theorem restrictionsRefused : Obligations.RestrictionsRefused := by
  refine ⟨broken_isSome, fun i s why => exec_broken, fun i s hb hc => ?_, fun i s he hw hu hroom => ?_⟩
  · obtain ⟨why, hwhy⟩ := Option.isSome_iff_exists.mp ((broken_isSome i).trans hb)
    exact ⟨why, exec_broken hwhy hc⟩
  · obtain ⟨-, hc, hb⟩ := (executes_iff i s).mp he
    obtain ⟨r, heff, hx⟩ := exec_effect i s
    rw [hx, conditional_pass hc hb]
    exact heff.off_top hroom hw (clear_of_unobstructed hu)

end Sys2Proof.Machine
end

section
/-! The banked registers: which register a number names in each mode, and that a write changes no other (10_state R23). -/

namespace Sys2Proof.Machine

theorem bank_shared : ∀ (m : Mode) (r : Reg), r.toNat ≤ 7 →
    bank m r = [Phys.r0, .r1, .r2, .r3, .r4, .r5, .r6, .r7][r.toNat]? := by
  intro m
  cases m <;> decide

theorem bank_eight_to_twelve : ∀ (m : Mode) (r : Reg), 8 ≤ r.toNat → r.toNat ≤ 12 →
    bank m r = (if m = .fiq then [Phys.r8Fiq, .r9Fiq, .r10Fiq, .r11Fiq, .r12Fiq][r.toNat - 8]?
      else [Phys.r8, .r9, .r10, .r11, .r12][r.toNat - 8]?) := by
  intro m
  cases m <;> decide

/-- Settles O48, by the modes and the numbers of each range; the law of writes is `Regs.get_set`. -/
theorem banking : Obligations.Banking :=
  ⟨bank_shared, bank_eight_to_twelve, by decide, by decide, bank_pc, fun _ => ⟨rfl, rfl, rfl, rfl, rfl, rfl, rfl⟩, Regs.get_set⟩

end Sys2Proof.Machine
end

section
/-! Memory: the bytes of a read in either byte order, a read after a write, and an instruction that stores nothing. -/

namespace Sys2Proof.Machine

open Sys2Proof.Claims

/-! ## Reads, byte by byte (20_memory R79, R80) -/

/-- Where byte `k` of an access stands in its value, byte 0 the least significant. -/
def byteLane (big : Bool) (size : Size) (k : Nat) : Nat := if big then size.bytes - 1 - k else k

theorem byteLane_lt (big : Bool) {size : Size} {k : Nat} (hk : k < size.bytes) : byteLane big size k < size.bytes := by
  unfold byteLane
  split <;> omega

/-- Counting from the other end twice is counting from the first. -/
theorem byteLane_byteLane (big : Bool) {size : Size} {k : Nat} (hk : k < size.bytes) :
    byteLane big size (byteLane big size k) = k := by
  unfold byteLane
  split <;> omega

/-- A read's value is made of the bytes of memory, each on its lane. -/
theorem wordByte_memRead_byteLane (big : Bool) (m : Memory) (a : Word) {size : Size} {k : Nat} (hk : k < size.bytes) :
    wordByte (memRead big m a size) (byteLane big size k) = byteAt m a k := by
  cases size <;> cases big <;> simp only [Size.bytes] at hk <;> interval_cases k <;>
    simp (disch := decide) only [memRead, joinHalf, joinWord, byteLane, Size.bytes, wordByte, if_true, Bool.false_eq_true,
      if_false, Nat.reduceSub, Nat.reduceMul, BitVec.extractLsb'_setWidth_of_le, BitVec.extractLsb'_append_eq_of_le,
      BitVec.extractLsb'_append_eq_of_add_le, BitVec.extractLsb'_eq_self]

theorem memRead_byte (big : Bool) (m : Memory) {a : Word} {size : Size} (h : misaligned a size = false) {k : Nat}
    (hk : k < size.bytes) : wordByte (memRead big m a size) (byteLane big size k) = m.read (a.toNat + k) := by
  rw [wordByte_memRead_byteLane big m a hk, byteAt, toNat_add_aligned h hk]

theorem memRead_zero_above (big : Bool) (m : Memory) (a : Word) {size : Size} {i : Nat} (hi : 8 * size.bytes ≤ i) :
    (memRead big m a size).getLsbD i = false := by
  cases size with
  | byte => rw [memRead, BitVec.getLsbD_setWidth, BitVec.getLsbD_of_ge (w := 8) _ i hi, Bool.and_false]
  | half => rw [memRead, BitVec.getLsbD_setWidth, BitVec.getLsbD_of_ge (w := 16) _ i hi, Bool.and_false]
  | word => exact BitVec.getLsbD_of_ge _ i hi

/-! ## A read after a write (R82, R124) -/

/-- Two words without bits above `n` bytes are equal where their first `n` bytes are. -/
theorem eq_of_wordByte_eq {n : Nat} {x y : Word} (hx : ∀ i, 8 * n ≤ i → x.getLsbD i = false)
    (hy : ∀ i, 8 * n ≤ i → y.getLsbD i = false) (h : ∀ k, k < n → wordByte x k = wordByte y k) : x = y := by
  apply BitVec.eq_of_getLsbD_eq
  intro i _
  by_cases hi : i < 8 * n
  · have hbit := congrArg (·.getLsbD (i % 8)) (h (i / 8) (by omega))
    have hlt : i % 8 < 8 := Nat.mod_lt i (by decide)
    simpa [wordByte, hlt, Nat.div_add_mod] using hbit
  · rw [hx i (by omega), hy i (by omega)]

theorem getLsbD_lowBits (v : Word) (n i : Nat) :
    (BitVec.ofNat 32 (v.toNat % 2 ^ n)).getLsbD i = (decide (i < n) && v.getLsbD i) := by
  rw [BitVec.getLsbD_ofNat, Nat.testBit_mod_two_pow, BitVec.testBit_toNat]
  by_cases hi : i < 32
  · simp [hi]
  · simp [BitVec.getLsbD_of_ge v i (by omega)]

theorem wordByte_lowBits (v : Word) {n k : Nat} (hk : k < n) :
    wordByte (BitVec.ofNat 32 (v.toNat % 2 ^ (8 * n))) k = wordByte v k := by
  apply BitVec.eq_of_getLsbD_eq
  intro i hi
  have hlt : 8 * k + i < 8 * n := by omega
  simp only [wordByte, BitVec.getLsbD_extractLsb', getLsbD_lowBits, hlt, decide_true, Bool.true_and]

theorem memRead_memWrite (big : Bool) (m : Memory) {a : Word} (v : Word) {size : Size} (h : misaligned a size = false) :
    memRead big (memWrite big m a v size) a size = BitVec.ofNat 32 (v.toNat % 2 ^ (8 * size.bytes)) := by
  refine eq_of_wordByte_eq (n := size.bytes) (fun i hi => memRead_zero_above big _ a hi)
    (fun i hi => by simp [getLsbD_lowBits, hi]) fun j hj => ?_
  have hk := byteLane_lt big hj
  calc wordByte (memRead big (memWrite big m a v size) a size) j
      = (memWrite big m a v size).read (a.toNat + byteLane big size j) := by
        rw [← memRead_byte big _ h hk, byteLane_byteLane big hj]
    _ = wordByte v j := by rw [memWrite_read_inside big m v h hk]; exact congrArg (wordByte v) (byteLane_byteLane big hj)
    _ = wordByte (BitVec.ofNat 32 (v.toNat % 2 ^ (8 * size.bytes))) j := (wordByte_lowBits v hj).symm

/-- Settles O49, from the bytes of a read (`memRead_byte`), the bytes of a write and the read after it. -/
theorem memoryBytes : Obligations.MemoryBytes := by
  intro m a v size h
  refine ⟨fun k => memRead_byte false m h, fun k => memWrite_read_inside false m v h, fun k => memRead_byte true m h,
    fun k => memWrite_read_inside true m v h, fun big i => memRead_zero_above big m a, fun big b hb => ?_,
    fun big => memWrite_wf big a v size, fun big => memRead_memWrite big m v h⟩
  exact memWrite_read_outside big m v h (by simpa [outside] using hb)

/-! ## Instructions that store nothing -/

/-- An instruction that stores nothing makes only reads, and those leave memory as it was. -/
theorem exec_mem_of_storesMem_eq_false {i : Instr} {s t : State} (h : exec i s = .next t) (hi : storesMem i s = false) :
    t.mem = s.mem := by
  simp only [storesMem, Bool.or_eq_false_iff, Option.isSome_eq_false_iff, Option.isNone_iff_eq_none] at hi
  obtain ⟨⟨hstore, hblock⟩, hswap⟩ := hi
  cases exec_made h with
  | reads l hl hmade => rw [hmade.mem, foldl_replay_reads l s hl]
  | store hs => simp [hstore] at hs
  | swap hs => simp [hswap] at hs
  | blockStore b hs => simp [hblock] at hs

/-- Settles O53: the instruction's accesses are reads. -/
theorem frameMemory : Obligations.FrameMemory := by
  intro i s t h hi a
  rw [exec_mem_of_storesMem_eq_false h hi]

end Sys2Proof.Machine
end

section
/-! The hazard after a User-bank LDM and the prefetch race: which word a step dispatches, and which instruction leaves the hazard
behind it (20_memory R128, 45_arm_block_swap R304, R314). -/

namespace Sys2Proof.Machine

open Sys2Proof.Claims

/-! ## The fetch: the race and the refusal -/

/-- The state a fetch is made in: the boundary's input consumed and the access on the bus. -/
def fetching (s : State) : State := record (beginStep s) (fetchAccess s)

/-- Where no exception comes first and the fetch is neither misaligned nor aborted, the word fetched is dispatched. -/
theorem fetch_eq_dispatch {s : State} (hb : boundary (lines s) s = none) (hal : pcAligned s = true)
    (hab : fetchAborts s = false) :
    fetch s = dispatch s.userLdm (fetchWord (fetching s)).1 (fetchWord (fetching s)).2 := by
  have hbound : boundary (lines s) (beginStep s) = none := boundary_eq_none.mpr ((boundary_eq_none (s := s)).mp hb)
  have halign : pcAligned (beginStep s) = true := hal
  have habort : fetchAborts (beginStep s) = false := hab
  rw [fetch, hbound]
  simp only [fetchAt, halign, habort, Bool.not_true, Bool.false_eq_true, if_false]
  rfl

theorem readMem_of_isMemory {s : State} {a : Word} (h : isMemory s a = true) (size : Size) :
    readMem s a size = (memRead s.env.bigEndian s.mem a size, s) := by
  unfold readMem
  split
  · rename_i hd
    simp [isMemory, hd] at h
  · rfl

/-- The fetch of a slot that was written while it was prefetched: its old or its new contents, by a free bit. -/
theorem fetchWord_changed {s : State} {old : Word} (hmem : isMemory s s.pc = true) (hpipe : s.pipe.first = some old)
    (hne : old ≠ memRead s.env.bigEndian s.mem s.pc (fetchSize s)) :
    fetchWord s = (if Config.freeBit s.draws then old else memRead s.env.bigEndian s.mem s.pc (fetchSize s),
      { s with draws := s.draws + 1 }) := by
  simp only [fetchWord, hpipe, readMem_of_isMemory hmem, if_neg hne]
  rfl

/-- Behind the hazard an instruction that uses a banked register is refused. -/
theorem dispatch_banked {hazard : Bool} {w : Word} {s : State} {i : Instr} (hdec : decodeFetched s.cpsr.t w = .ok i)
    (hh : hazard = true) (hu : usesBanked i s.cpsr = true) : dispatch hazard w s = .stop .bankedAfterUserLdm := by
  simp [dispatch, hdec, hh, hu]

theorem step_of_fetch_run {s u : State} {i : Instr} (hr : (lines s).resetAfter = none) (hf : fetch s = .run i u) :
    step s = exec i u := by
  rw [step_whole hr, wholeStep, hf]

theorem step_of_fetch_stop {s : State} {why : Refusal} (hr : (lines s).resetAfter = none) (hf : fetch s = .stop why) :
    step s = .refused why := by
  rw [step_whole hr, wholeStep, hf]

/-! ## What leaves the hazard flag as it was -/

theorem advance_userLdm {s t : State} (h : advance s = .next t) : t.userLdm = s.userLdm := by
  obtain ⟨-, rfl⟩ := advance_next h
  rfl

theorem branchExchange_userLdm {a : Word} {s t : State} (h : branchExchange a s = .next t) : t.userLdm = s.userLdm := by
  obtain ⟨-, rfl⟩ | ⟨-, -, rfl⟩ := branchExchange_next h <;> rfl

theorem exceptionReturn_userLdm {m : Bool} {a : Word} {s t : State} (h : exceptionReturn m a s = .next t) :
    t.userLdm = s.userLdm := by
  obtain ⟨w, p, -, -, ⟨-, rfl⟩ | ⟨-, -, rfl⟩ | ⟨-, -, -, rfl⟩⟩ := exceptionReturn_next h <;> rfl

@[simp] theorem takeDataAbort_userLdm (s : State) : (takeDataAbort s).userLdm = false := rfl

theorem isUserLoad_of_blockEndOf {s : State} {i : Instr} {b : Block} (hi : blockLoadOf s i = some b)
    (h : blockEndOf i = .user) : isUserLoad i = true := by
  cases i <;> cases hi <;> cases h
  rfl

section Operations

variable {s t : State}

theorem dataProcess_userLdm {op : AluOp} {sf : Bool} {a : Word} {rd : Reg} {o : Shifted}
    (h : dataProcess op sf a rd o s = .next t) : t.userLdm = s.userLdm := by
  obtain ⟨-, -, hr⟩ | ⟨-, -, rfl⟩ | ⟨-, ha⟩ := dataProcess_next h
  · exact exceptionReturn_userLdm hr
  · rfl
  · simpa using advance_userLdm ha

theorem finishMul_userLdm {sf : Bool} {rd : Reg} {v : Word} (h : finishMul sf rd v s = .next t) : t.userLdm = s.userLdm := by
  cases sf <;> simpa using advance_userLdm h

theorem finishMulLong_userLdm {sf : Bool} {hi lo : Reg} {v : BitVec 64} (h : finishMulLong sf hi lo v s = .next t) :
    t.userLdm = s.userLdm := by
  cases sf <;> simpa using advance_userLdm h

/-! A transfer that is aborted clears the flag. -/

variable (hs : s.userLdm = false)
include hs

theorem loadSingle_userLdm {k : LoadKind} {priv : Bool} {rn rd : Reg} {x : Address}
    (h : loadSingle k priv rn rd x s = .next t) : t.userLdm = false := by
  obtain ⟨-, rfl⟩ | ⟨-, -, v, u, hu, h⟩ := loadSingle_next h
  · rfl
  · obtain rfl : _ = u := congrArg Prod.snd hu
    obtain ⟨-, rfl⟩ | ⟨-, ha⟩ := loadTo_next h
    · simpa using hs
    · simpa [hs] using advance_userLdm ha

theorem storeSingle_userLdm {size : Size} {priv : Bool} {rn rd : Reg} {x : Address}
    (h : storeSingle size priv rn rd x s = .next t) : t.userLdm = false := by
  obtain ⟨-, rfl⟩ | ⟨-, -, ha⟩ := storeSingle_next h
  · rfl
  · simpa [hs] using advance_userLdm ha

theorem swap_userLdm {size : Size} {rn rd rm : Reg} (h : swap size rn rd rm s = .next t) : t.userLdm = false := by
  obtain ⟨-, rfl⟩ | ⟨-, v, u, hu, ⟨-, rfl⟩ | ⟨-, ha⟩⟩ := swap_next h
  · rfl
  · rfl
  · obtain rfl : _ = u := congrArg Prod.snd hu
    simpa [hs] using advance_userLdm ha

theorem blockStore_userLdm {m : Mode} {rn : Reg} {regs : List Reg} {start : Word} {wb : Option Word}
    (h : blockStore m rn regs start wb s = .next t) : t.userLdm = false := by
  obtain ⟨-, ⟨-, rfl⟩ | ⟨-, ha⟩⟩ := blockStore_next h
  · rfl
  · simpa [hs] using advance_userLdm ha

/-- The end of a block load raises the flag in the User form, where R15 is not loaded. -/
theorem endBlock_userLdm {e : BlockEnd} {v : Option Word} (h : endBlock e v s = .next t) :
    t.userLdm = true ↔ e = .user ∧ v = none := by
  obtain ⟨rfl, ⟨rfl, ha⟩ | ⟨he, ha⟩⟩ | ⟨w, rfl, ⟨-, rfl⟩ | ⟨-, rfl⟩ | ⟨-, hr⟩ | ⟨-, rfl⟩⟩ := endBlock_next h
  · simp [advance_userLdm ha]
  · simp [advance_userLdm ha, hs, he]
  · simp [hs]
  · simp [hs]
  · simp [exceptionReturn_userLdm hr, hs]
  · simp [hs]

/-- A block load that does not load R15 raises the flag exactly in the User form with no word aborted. -/
theorem blockLoad_userLdm {e : BlockEnd} {m : Mode} {rn : Reg} {regs : List Reg} {start : Word} {wb : Option Word}
    (hpc : e = .user → (15 : Reg) ∉ regs) (h : blockLoad e m rn regs start wb s = .next t) :
    t.userLdm = true ↔ e = .user ∧ blockAborts s start regs.length false = false := by
  obtain ⟨-, ⟨ha, rfl⟩ | ⟨ha, vs, u, hu, he⟩⟩ := blockLoad_next h
  · simp [ha]
  · obtain rfl : _ = u := congrArg Prod.snd hu
    rw [endBlock_userLdm (by simpa using hs) he]
    refine and_congr_right fun hue => ?_
    simp only [ha, iff_true]
    refine List.lookup_eq_none_iff.mpr fun x hx => ?_
    rw [bne_iff_ne]
    exact fun hx15 => hpc hue (hx15 ▸ (List.of_mem_zip hx).1)

/-! ## Which instruction leaves the hazard behind it -/

theorem Effect.userLdm_of_not_userLoad {i : Instr} {r : Result} (he : Effect s i r) (hr : r = .next t)
    (hi : isUserLoad i = false) : t.userLdm = false := by
  cases he with
  | dataProcess => rw [dataProcess_userLdm hr, hs]
  | compare | thumbCompare => exact (advance_userLdm hr).trans hs
  | thumbAlu => simpa [hs] using advance_userLdm hr
  | readPsr =>
    obtain ⟨w, ha⟩ := readPsr_next hr
    simpa [hs] using advance_userLdm ha
  | writePsr =>
    obtain ⟨-, q, ha⟩ | ⟨-, p, -, ha⟩ := writePsr_next hr <;> exact (advance_userLdm ha).trans hs
  | multiply => rw [finishMul_userLdm hr, hs]
  | multiplyLong => rw [finishMulLong_userLdm hr, hs]
  | load => exact loadSingle_userLdm hs hr
  | store => exact storeSingle_userLdm hs hr
  | swap => exact swap_userLdm hs hr
  | blockLoad why hb =>
    have hend : blockEndOf i ≠ .user := fun h => by simp [isUserLoad_of_blockEndOf hb h] at hi
    split at hr
    · simpa [hend] using blockLoad_userLdm hs (absurd · hend) hr
    · cases hr
  | blockStore =>
    split at hr
    · exact blockStore_userLdm hs hr
    · cases hr
  | trap =>
    cases hr
    rfl
  | exchange => rw [branchExchange_userLdm hr, hs]
  | high =>
    obtain rfl | ha := writeHigh_next hr
    · exact hs
    · simpa [hs] using advance_userLdm ha
  | setReg => simpa [hs] using advance_userLdm hr
  | condBranch =>
    obtain rfl | ha := branchIf_next hr
    · exact hs
    · exact (advance_userLdm ha).trans hs
  | branch =>
    cases hr
    exact hs
  | branchLink =>
    cases hr
    simpa using hs

/-- A User-bank LDM raises the flag exactly where it executes with no word aborted. -/
theorem exec_userLdm_of_userLoad {i : Instr} (hin : InState i s) (hi : isUserLoad i = true) (h : exec i s = .next t) :
    t.userLdm = true ↔ executes i s = true ∧ ∃ b, blockLoadOf s i = some b ∧ b.aborts s false = false := by
  cases i <;> cases hi
  case ldmUser c p u w rn list =>
    obtain ⟨hc, hb, h⟩ | ⟨hc, ha⟩ := conditional_next h
    · have hex : executes (.ldmUser c p u w rn list) s = true := (executes_iff _ _).mpr ⟨hin, hc, hb⟩
      have hblock : blockLoadOf s (.ldmUser c p u w rn list) = some (userBlock s p u rn (regsOf list)) := rfl
      split at h
      · rw [blockLoad_userLdm hs (fun _ => by simp [mem_regsOf, listed]) h, hblock]
        simp only [hex, true_and, Option.some.injEq, exists_eq_left', ← blockAborts_eq]
        rfl
      · cases h
    · have hc : condPassed (condOf (.ldmUser c p u w rn list)) s.cpsr = false := hc
      simp [advance_userLdm ha, hs, executes_iff, hc]

theorem exec_userLdm_of_not_userLoad {i : Instr} (hi : isUserLoad i = false) (h : exec i s = .next t) : t.userLdm = false := by
  obtain ha | he := exec_next h
  · exact (advance_userLdm ha).trans hs
  · exact he.userLdm_of_not_userLoad hs rfl hi

end Operations

/-! ## The step -/

/-- An instruction starts with no hazard pending. -/
theorem fetch_run_userLdm {s u : State} {i : Instr} (h : fetch s = .run i u) : u.userLdm = false := by
  unfold fetch at h
  split at h
  · cases h
  · unfold fetchAt at h
    split at h
    · cases h
    · split at h
      · cases h
      · obtain ⟨-, rfl⟩ := dispatch_eq_run h
        rfl

/-- What the boundary and the fetch take in place of an instruction leaves no hazard. -/
theorem fetch_taken_userLdm {s v : State} (h : fetch s = .taken v) : v.userLdm = false := by
  obtain ⟨-, rfl⟩ | ⟨e, u, -, rfl⟩ := fetch_taken h <;> rfl

/-- A whole step leaves the hazard behind it exactly where it ran an LDM of the User bank to its end (R314). -/
theorem wholeStep_userLdm {s t : State} (h : wholeStep s = .next t) :
    t.userLdm = true ↔ ∃ i u b, fetch s = .run i u ∧ isUserLoad i = true ∧ executes i u = true ∧ blockLoadOf u i = some b ∧
      b.aborts u false = false := by
  obtain hf | ⟨i, u, hf, hx⟩ := wholeStep_next h
  · simp [hf, fetch_taken_userLdm hf]
  · have hu := fetch_run_userLdm hf
    obtain ⟨-, hin, -⟩ := fetch_run hf
    simp only [hf, Fetched.run.injEq, exists_and_left, and_assoc, exists_eq_left']
    cases hi : isUserLoad i with
    | false => simp [exec_userLdm_of_not_userLoad hu hi hx]
    | true => simp [exec_userLdm_of_userLoad hu hin hi hx]

/-- A changed slot is dispatched as the word its free bit picks, with one value drawn. -/
theorem fetch_changed {s : State} {old : Word} (hb : boundary (lines s) s = none) (hal : pcAligned s = true)
    (hab : fetchAborts s = false) (hmem : isMemory s s.pc = true) (hpipe : s.pipe.first = some old)
    (hne : old ≠ memRead s.env.bigEndian s.mem s.pc (fetchSize s)) :
    fetch s = dispatch s.userLdm (if Config.freeBit s.draws then old else memRead s.env.bigEndian s.mem s.pc (fetchSize s))
      { fetching s with draws := s.draws + 1 } := by
  rw [fetch_eq_dispatch hb hal hab, fetchWord_changed (s := fetching s) hmem hpipe hne]
  rfl

theorem fetch_unchanged {s : State} (hb : boundary (lines s) s = none) (hal : pcAligned s = true)
    (hab : fetchAborts s = false) (hmem : isMemory s s.pc = true)
    (hpipe : s.pipe.first = none ∨ s.pipe.first = some (memRead s.env.bigEndian s.mem s.pc (fetchSize s))) :
    fetch s = dispatch s.userLdm (memRead s.env.bigEndian s.mem s.pc (fetchSize s)) (fetching s) := by
  rw [fetch_eq_dispatch hb hal hab, fetchWord_unchanged (s := fetching s) hmem hpipe]
  rfl

/-- Settles O56: the word a changed or an unchanged slot dispatches, the refusal behind the hazard, and the flag a step leaves. -/
theorem hazards : Obligations.Hazards := by
  refine ⟨?_, fun s t hr h => wholeStep_userLdm (step_whole hr ▸ h)⟩
  rintro s new hb hr hal hab hmem rfl
  refine ⟨fun old i j hpipe hne hi hj => ?_, fun i hpipe hi hu hbank => ?_⟩
  · have hfetch := fetch_changed hb hal hab hmem hpipe hne
    have hdec : decodeFetched s.cpsr.t
        (if Config.freeBit s.draws then old else memRead s.env.bigEndian s.mem s.pc (fetchSize s)) =
        .ok (if Config.freeBit s.draws then i else j) := by
      split
      · exact hi
      · exact hj
    exact ⟨fun hu => step_of_fetch_run hr (hfetch.trans (dispatch_run hdec (.inl hu))),
      fun hu hbank => step_of_fetch_stop hr (hfetch.trans (dispatch_banked hdec hu hbank))⟩
  · exact step_of_fetch_stop hr ((fetch_unchanged hb hal hab hmem hpipe).trans (dispatch_banked hi hu hbank))

end Sys2Proof.Machine
end

section
/-! The fields of an encoded instruction (30_encoding R142, R143, R149): for each format of the encoder, an `↔` that says which
fields the words of the format have. Both directions of the round trip are read off these. -/

namespace Sys2Proof

/-! ## The fields of a concatenation -/

/-- A field that is a concatenation is two fields. -/
theorem field_eq_append_iff {k m n s : Nat} {x : BitVec m} {y : BitVec n} {w : BitVec k} :
    w.extractLsb' s (m + n) = x ++ y ↔ w.extractLsb' (s + n) m = x ∧ w.extractLsb' s n = y := by
  rw [← BitVec.extractLsb'_append_extractLsb'_eq_extractLsb' rfl]
  refine ⟨fun h => ⟨?_, ?_⟩, fun ⟨hx, hy⟩ => hx ▸ hy ▸ rfl⟩
  · simpa only [BitVec.extractLsb'_append_eq_left] using congrArg (BitVec.extractLsb' n m) h
  · simpa only [BitVec.extractLsb'_append_eq_right] using congrArg (BitVec.extractLsb' 0 n) h

/-- A concatenation is a word by its two fields. -/
theorem append_eq_iff_fields {m n : Nat} {x : BitVec m} {y : BitVec n} {w : BitVec (m + n)} :
    x ++ y = w ↔ w.extractLsb' n m = x ∧ w.extractLsb' 0 n = y := by
  rw [eq_comm]
  simpa using field_eq_append_iff (x := x) (y := y) (w := w) (s := 0)

theorem field_eq_iff_bits {k n s : Nat} {v : BitVec n} {w : BitVec k} :
    w.extractLsb' s n = v ↔ ∀ i < n, w.getLsbD (s + i) = v.getLsbD i := by
  rw [BitVec.eq_of_getLsbD_eq_iff]
  exact forall₂_congr fun i hi => by simp [hi]

/-- A constant field, its top bit first: with `field_eq_const_zero`, simp turns it into its bits. -/
theorem field_eq_const_succ_iff {k n s v : Nat} {w : BitVec k} : w.extractLsb' s (n + 1) = BitVec.ofNat (n + 1) v ↔
    w.getLsbD (s + n) = (BitVec.ofNat (n + 1) v).getLsbD n ∧ w.extractLsb' s n = BitVec.ofNat n v := by
  simp only [field_eq_iff_bits, Nat.forall_lt_succ_right, BitVec.getLsbD_ofNat]
  grind

theorem field_eq_const_zero {k s v : Nat} {w : BitVec k} : w.extractLsb' s 0 = BitVec.ofNat 0 v ↔ True :=
  iff_true_intro (Subsingleton.elim _ _)

theorem field_eq_bit1_iff {k s : Nat} {b : Bool} {w : BitVec k} : w.extractLsb' s 1 = bit1 b ↔ w.getLsbD s = b := by
  simp [field_eq_iff_bits]

theorem field_eq_shiftType_iff {k s : Nat} {t : ShiftType} {w : BitVec k} :
    w.extractLsb' s 2 = t.bits ↔ ShiftType.ofBits (w.getLsbD (s + 1)) (w.getLsbD s) = t := by
  cases t <;> simp only [ShiftType.bits, field_eq_const_succ_iff, field_eq_const_zero] <;>
    cases w.getLsbD (s + 1) <;> cases w.getLsbD s <;> decide

/-! ## The condition and the class of an ARM word -/

theorem Cond.ofBits_bits (c : Cond) : Cond.ofBits c.bits = some c := by
  cases c <;> rfl

theorem Cond.eq_bits_of_ofBits {b : BitVec 4} {c : Cond} (h : Cond.ofBits b = some c) : b = c.bits := by
  unfold Cond.ofBits at h
  split at h <;> cases h <;> exact BitVec.eq_of_toNat_eq ‹_›

/-- What the ARM decoder looks at first (R145): the condition, and bits [27:25]. -/
structure InClass (c : Cond) (b27 b26 b25 : Bool) (w : Word) : Prop where
  cond : w.extractLsb' 28 4 = c.bits
  bit27 : w.getLsbD 27 = b27
  bit26 : w.getLsbD 26 = b26
  bit25 : w.getLsbD 25 = b25

theorem inClass_iff {c : Cond} {b27 b26 b25 : Bool} {w : Word} : InClass c b27 b26 b25 w ↔
    w.extractLsb' 28 4 = c.bits ∧ w.getLsbD 27 = b27 ∧ w.getLsbD 26 = b26 ∧ w.getLsbD 25 = b25 :=
  ⟨fun ⟨hc, h27, h26, h25⟩ => ⟨hc, h27, h26, h25⟩, fun ⟨hc, h27, h26, h25⟩ => ⟨hc, h27, h26, h25⟩⟩

/-! ## The ARM formats (R142) -/

theorem encDpImm_eq_arm {c : Cond} {op : BitVec 4} {s : Bool} {rn rd : Reg} {o : RotImm} {w : Word} :
    encDpImm c op s rn rd o = .arm w ↔ InClass c false false true w ∧ w.extractLsb' 21 4 = op ∧ w.getLsbD 20 = s ∧
      fieldRn w = rn ∧ fieldRd w = rd ∧ fieldImm w = o := by
  cases o
  rw [encDpImm, Encoding.arm.injEq, append_eq_iff_fields]
  simp only [↓field_eq_append_iff, field_eq_bit1_iff, field_eq_const_succ_iff, field_eq_const_zero, BitVec.reduceGetLsb,
    Nat.reduceAdd, and_true, and_assoc, inClass_iff, fieldRn, fieldRd, fieldImm, RotImm.mk.injEq]

theorem encDpShImm_eq_arm {c : Cond} {op : BitVec 4} {s : Bool} {rn rd : Reg} {o : ShImm} {w : Word} :
    encDpShImm c op s rn rd o = .arm w ↔ InClass c false false false w ∧ w.extractLsb' 21 4 = op ∧ w.getLsbD 20 = s ∧
      fieldRn w = rn ∧ fieldRd w = rd ∧ w.getLsbD 4 = false ∧ fieldShImm w = o := by
  cases o
  rw [encDpShImm, Encoding.arm.injEq, append_eq_iff_fields]
  simp only [↓field_eq_append_iff, field_eq_bit1_iff, field_eq_const_succ_iff, field_eq_const_zero, BitVec.reduceGetLsb,
    Nat.reduceAdd, and_true, and_assoc, field_eq_shiftType_iff, inClass_iff, fieldRn, fieldRd, fieldRm, fieldShImm,
    ShImm.mk.injEq]
  tauto

theorem encDpShReg_eq_arm {c : Cond} {op : BitVec 4} {s : Bool} {rn rd : Reg} {o : ShReg} {w : Word} :
    encDpShReg c op s rn rd o = .arm w ↔ InClass c false false false w ∧ w.extractLsb' 21 4 = op ∧ w.getLsbD 20 = s ∧
      fieldRn w = rn ∧ fieldRd w = rd ∧ w.getLsbD 7 = false ∧ w.getLsbD 4 = true ∧ fieldShReg w = o := by
  cases o
  rw [encDpShReg, Encoding.arm.injEq, append_eq_iff_fields]
  simp only [↓field_eq_append_iff, field_eq_bit1_iff, field_eq_const_succ_iff, field_eq_const_zero, BitVec.reduceGetLsb,
    Nat.reduceAdd, and_true, and_assoc, field_eq_shiftType_iff, inClass_iff, fieldRn, fieldRd, fieldRs, fieldRm, fieldShReg,
    ShReg.mk.injEq]
  tauto

theorem encMul_eq_arm {c : Cond} {top : BitVec 7} {s : Bool} {f19 f15 rs rm : Reg} {w : Word} :
    encMul c top s f19 f15 rs rm = .arm w ↔ InClass c (top.getLsbD 6) (top.getLsbD 5) (top.getLsbD 4) w ∧
      w.getLsbD 24 = top.getLsbD 3 ∧ w.getLsbD 23 = top.getLsbD 2 ∧ w.getLsbD 22 = top.getLsbD 1 ∧
      w.getLsbD 21 = top.getLsbD 0 ∧ w.getLsbD 20 = s ∧ fieldRn w = f19 ∧ fieldRd w = f15 ∧ fieldRs w = rs ∧
      w.getLsbD 7 = true ∧ w.getLsbD 6 = false ∧ w.getLsbD 5 = false ∧ w.getLsbD 4 = true ∧ fieldRm w = rm := by
  rw [encMul, Encoding.arm.injEq, append_eq_iff_fields]
  simp only [↓field_eq_append_iff, field_eq_bit1_iff, field_eq_const_succ_iff, field_eq_const_zero, BitVec.reduceGetLsb,
    Nat.reduceAdd, and_true, and_assoc, field_eq_iff_bits (v := top), Nat.forall_lt_succ_right, Nat.not_lt_zero,
    false_imp_iff, implies_true, true_and, Nat.add_zero, inClass_iff, fieldRn, fieldRd, fieldRs, fieldRm]
  tauto

theorem encHalfReg_eq_arm {c : Cond} {p u wb l : Bool} {sh : BitVec 2} {rn rd rm : Reg} {w : Word} :
    encHalfReg c p u wb l sh rn rd rm = .arm w ↔ InClass c false false false w ∧
      w.getLsbD 24 = p ∧ w.getLsbD 23 = u ∧ w.getLsbD 22 = false ∧ w.getLsbD 21 = wb ∧ w.getLsbD 20 = l ∧
      fieldRn w = rn ∧ fieldRd w = rd ∧ fieldRs w = 0#4 ∧ w.getLsbD 7 = true ∧ w.getLsbD 6 = sh.getLsbD 1 ∧
      w.getLsbD 5 = sh.getLsbD 0 ∧ w.getLsbD 4 = true ∧ fieldRm w = rm := by
  rw [encHalfReg, Encoding.arm.injEq, append_eq_iff_fields]
  simp only [↓field_eq_append_iff, field_eq_bit1_iff, field_eq_const_succ_iff, field_eq_const_zero, BitVec.reduceGetLsb,
    Nat.reduceAdd, and_true, and_assoc, field_eq_iff_bits (v := sh), Nat.forall_lt_succ_right, Nat.not_lt_zero,
    false_imp_iff, implies_true, true_and, Nat.add_zero, inClass_iff, fieldRn, fieldRd, fieldRs, fieldRm]
  tauto

theorem encHalfImm_eq_arm {c : Cond} {p u wb l : Bool} {sh : BitVec 2} {rn rd : Reg} {imm : BitVec 8} {w : Word} :
    encHalfImm c p u wb l sh rn rd imm = .arm w ↔ InClass c false false false w ∧
      w.getLsbD 24 = p ∧ w.getLsbD 23 = u ∧ w.getLsbD 22 = true ∧ w.getLsbD 21 = wb ∧ w.getLsbD 20 = l ∧
      fieldRn w = rn ∧ fieldRd w = rd ∧ w.getLsbD 7 = true ∧ w.getLsbD 6 = sh.getLsbD 1 ∧ w.getLsbD 5 = sh.getLsbD 0 ∧
      w.getLsbD 4 = true ∧ w.extractLsb' 8 4 ++ w.extractLsb' 0 4 = imm := by
  have himm := append_eq_iff_fields (x := w.extractLsb' 8 4) (y := w.extractLsb' 0 4) (w := imm)
  rw [encHalfImm, Encoding.arm.injEq, append_eq_iff_fields, himm]
  simp only [↓field_eq_append_iff, field_eq_bit1_iff, field_eq_const_succ_iff, field_eq_const_zero, BitVec.reduceGetLsb,
    Nat.reduceAdd, and_true, and_assoc, field_eq_iff_bits (v := sh), Nat.forall_lt_succ_right, Nat.not_lt_zero,
    false_imp_iff, implies_true, true_and, Nat.add_zero, inClass_iff, fieldRn, fieldRd, eq_comm (a := imm.extractLsb' _ _)]
  tauto

theorem encSingleImm_eq_arm {c : Cond} {p u b wb l : Bool} {rn rd : Reg} {imm : BitVec 12} {w : Word} :
    encSingleImm c p u b wb l rn rd imm = .arm w ↔ InClass c false true false w ∧
      w.getLsbD 24 = p ∧ w.getLsbD 23 = u ∧ w.getLsbD 22 = b ∧ w.getLsbD 21 = wb ∧ w.getLsbD 20 = l ∧
      fieldRn w = rn ∧ fieldRd w = rd ∧ w.extractLsb' 0 12 = imm := by
  rw [encSingleImm, Encoding.arm.injEq, append_eq_iff_fields]
  simp only [↓field_eq_append_iff, field_eq_bit1_iff, field_eq_const_succ_iff, field_eq_const_zero, BitVec.reduceGetLsb,
    Nat.reduceAdd, and_true, and_assoc, inClass_iff, fieldRn, fieldRd]

theorem encSingleReg_eq_arm {c : Cond} {p u b wb l : Bool} {rn rd : Reg} {o : ShImm} {w : Word} :
    encSingleReg c p u b wb l rn rd o = .arm w ↔ InClass c false true true w ∧
      w.getLsbD 24 = p ∧ w.getLsbD 23 = u ∧ w.getLsbD 22 = b ∧ w.getLsbD 21 = wb ∧ w.getLsbD 20 = l ∧
      fieldRn w = rn ∧ fieldRd w = rd ∧ w.getLsbD 4 = false ∧ fieldShImm w = o := by
  cases o
  rw [encSingleReg, Encoding.arm.injEq, append_eq_iff_fields]
  simp only [↓field_eq_append_iff, field_eq_bit1_iff, field_eq_const_succ_iff, field_eq_const_zero, BitVec.reduceGetLsb,
    Nat.reduceAdd, and_true, and_assoc, field_eq_shiftType_iff, inClass_iff, fieldRn, fieldRd, fieldRm, fieldShImm,
    ShImm.mk.injEq]
  tauto

theorem encBlock_eq_arm {c : Cond} {p u s wb l : Bool} {rn : Reg} {b15 : Bool} {list : BitVec 15} {w : Word} :
    encBlock c p u s wb l rn b15 list = .arm w ↔ InClass c true false false w ∧
      w.getLsbD 24 = p ∧ w.getLsbD 23 = u ∧ w.getLsbD 22 = s ∧ w.getLsbD 21 = wb ∧ w.getLsbD 20 = l ∧
      fieldRn w = rn ∧ w.getLsbD 15 = b15 ∧ w.extractLsb' 0 15 = list := by
  rw [encBlock, Encoding.arm.injEq, append_eq_iff_fields]
  simp only [↓field_eq_append_iff, field_eq_bit1_iff, field_eq_const_succ_iff, field_eq_const_zero, BitVec.reduceGetLsb,
    Nat.reduceAdd, and_true, and_assoc, inClass_iff, fieldRn]

/-- Format 10 with all sixteen bits of the list in the instruction. -/
theorem encBlock_list_eq_arm {c : Cond} {p u s wb l : Bool} {rn : Reg} {list : BitVec 16} {w : Word} :
    encBlock c p u s wb l rn (list.getLsbD 15) (list.extractLsb' 0 15) = .arm w ↔ InClass c true false false w ∧
      w.getLsbD 24 = p ∧ w.getLsbD 23 = u ∧ w.getLsbD 22 = s ∧ w.getLsbD 21 = wb ∧ w.getLsbD 20 = l ∧
      fieldRn w = rn ∧ w.extractLsb' 0 16 = list := by
  have hlist : bit1 (list.getLsbD 15) ++ list.extractLsb' 0 15 = list :=
    append_eq_iff_fields.2 ⟨field_eq_bit1_iff.2 rfl, rfl⟩
  have hw := field_eq_append_iff (x := bit1 (list.getLsbD 15)) (y := list.extractLsb' 0 15) (w := w) (s := 0)
  rw [hlist, field_eq_bit1_iff] at hw
  rw [encBlock_eq_arm, hw]

theorem encCpTransfer_eq_arm {c : Cond} {p u n wb l : Bool} {rn crd cp : BitVec 4} {imm : BitVec 8} {w : Word} :
    encCpTransfer c p u n wb l rn crd cp imm = .arm w ↔ InClass c true true false w ∧
      w.getLsbD 24 = p ∧ w.getLsbD 23 = u ∧ w.getLsbD 22 = n ∧ w.getLsbD 21 = wb ∧ w.getLsbD 20 = l ∧
      fieldRn w = rn ∧ fieldRd w = crd ∧ fieldRs w = cp ∧ w.extractLsb' 0 8 = imm := by
  rw [encCpTransfer, Encoding.arm.injEq, append_eq_iff_fields]
  simp only [↓field_eq_append_iff, field_eq_bit1_iff, field_eq_const_succ_iff, field_eq_const_zero, BitVec.reduceGetLsb,
    Nat.reduceAdd, and_true, and_assoc, inClass_iff, fieldRn, fieldRd, fieldRs]

theorem encCpRegister_eq_arm {c : Cond} {opc1 : BitVec 3} {l : Bool} {crn rd cp : BitVec 4} {opc2 : BitVec 3} {crm : BitVec 4}
    {w : Word} : encCpRegister c opc1 l crn rd cp opc2 crm = .arm w ↔ InClass c true true true w ∧
      w.getLsbD 24 = false ∧ w.extractLsb' 21 3 = opc1 ∧ w.getLsbD 20 = l ∧ fieldRn w = crn ∧ fieldRd w = rd ∧
      fieldRs w = cp ∧ w.extractLsb' 5 3 = opc2 ∧ w.getLsbD 4 = true ∧ fieldRm w = crm := by
  rw [encCpRegister, Encoding.arm.injEq, append_eq_iff_fields]
  simp only [↓field_eq_append_iff, field_eq_bit1_iff, field_eq_const_succ_iff, field_eq_const_zero, BitVec.reduceGetLsb,
    Nat.reduceAdd, and_true, and_assoc, inClass_iff, fieldRn, fieldRd, fieldRs, fieldRm]

/-! ## The ARM instructions with a format of their own -/

theorem encode_b_eq_arm {c : Cond} {off : BitVec 24} {w : Word} : encode (.b c off) = .arm w ↔
    InClass c true false true w ∧ w.getLsbD 24 = false ∧ w.extractLsb' 0 24 = off := by
  rw [encode, Encoding.arm.injEq, append_eq_iff_fields]
  simp only [↓field_eq_append_iff, field_eq_const_succ_iff, field_eq_const_zero, BitVec.reduceGetLsb, Nat.reduceAdd,
    and_true, and_assoc, inClass_iff]

theorem encode_bl_eq_arm {c : Cond} {off : BitVec 24} {w : Word} : encode (.bl c off) = .arm w ↔
    InClass c true false true w ∧ w.getLsbD 24 = true ∧ w.extractLsb' 0 24 = off := by
  rw [encode, Encoding.arm.injEq, append_eq_iff_fields]
  simp only [↓field_eq_append_iff, field_eq_const_succ_iff, field_eq_const_zero, BitVec.reduceGetLsb, Nat.reduceAdd,
    and_true, and_assoc, inClass_iff]

theorem encode_bx_eq_arm {c : Cond} {rn : Reg} {w : Word} : encode (.bx c rn) = .arm w ↔
    InClass c false false false w ∧ w.extractLsb' 4 24 = 0x12FFF1#24 ∧ fieldRm w = rn := by
  rw [encode, Encoding.arm.injEq, append_eq_iff_fields]
  simp only [↓field_eq_append_iff, field_eq_const_succ_iff, field_eq_const_zero, BitVec.reduceGetLsb, Nat.reduceAdd,
    and_true, and_assoc, inClass_iff, fieldRm]
  tauto

theorem encode_mrs_eq_arm {c : Cond} {spsr : Bool} {rd : Reg} {w : Word} : encode (.mrs c spsr rd) = .arm w ↔
    InClass c false false false w ∧ w.getLsbD 24 = true ∧ w.getLsbD 23 = false ∧ w.getLsbD 22 = spsr ∧
      w.getLsbD 21 = false ∧ w.getLsbD 20 = false ∧ w.extractLsb' 16 4 = 0b1111#4 ∧ fieldRd w = rd ∧
      w.extractLsb' 0 12 = 0#12 := by
  rw [encode, Encoding.arm.injEq, append_eq_iff_fields]
  simp only [↓field_eq_append_iff, field_eq_bit1_iff, field_eq_const_succ_iff, field_eq_const_zero, BitVec.reduceGetLsb,
    Nat.reduceAdd, and_true, and_assoc, inClass_iff, fieldRd]

theorem encode_msrReg_eq_arm {c : Cond} {spsr : Bool} {mask : BitVec 4} {rm : Reg} {w : Word} :
    encode (.msrReg c spsr mask rm) = .arm w ↔ InClass c false false false w ∧ w.getLsbD 24 = true ∧ w.getLsbD 23 = false ∧
      w.getLsbD 22 = spsr ∧ w.getLsbD 21 = true ∧ w.getLsbD 20 = false ∧ fieldRn w = mask ∧
      w.extractLsb' 12 4 = 0b1111#4 ∧ w.extractLsb' 4 8 = 0#8 ∧ fieldRm w = rm := by
  rw [encode, Encoding.arm.injEq, append_eq_iff_fields]
  simp only [↓field_eq_append_iff, field_eq_bit1_iff, field_eq_const_succ_iff, field_eq_const_zero, BitVec.reduceGetLsb,
    Nat.reduceAdd, and_true, and_assoc, inClass_iff, fieldRn, fieldRm]

theorem encode_msrImm_eq_arm {c : Cond} {spsr : Bool} {mask : BitVec 4} {o : RotImm} {w : Word} :
    encode (.msrImm c spsr mask o) = .arm w ↔ InClass c false false true w ∧ w.getLsbD 24 = true ∧ w.getLsbD 23 = false ∧
      w.getLsbD 22 = spsr ∧ w.getLsbD 21 = true ∧ w.getLsbD 20 = false ∧ fieldRn w = mask ∧
      w.extractLsb' 12 4 = 0b1111#4 ∧ fieldImm w = o := by
  cases o
  rw [encode, Encoding.arm.injEq, append_eq_iff_fields]
  simp only [↓field_eq_append_iff, field_eq_bit1_iff, field_eq_const_succ_iff, field_eq_const_zero, BitVec.reduceGetLsb,
    Nat.reduceAdd, and_true, and_assoc, inClass_iff, fieldRn, fieldImm, RotImm.mk.injEq]

theorem encode_undef_eq_arm {c : Cond} {hi : BitVec 20} {lo : BitVec 4} {w : Word} : encode (.undef c hi lo) = .arm w ↔
    InClass c false true true w ∧ w.extractLsb' 5 20 = hi ∧ w.getLsbD 4 = true ∧ w.extractLsb' 0 4 = lo := by
  rw [encode, Encoding.arm.injEq, append_eq_iff_fields]
  simp only [↓field_eq_append_iff, field_eq_const_succ_iff, field_eq_const_zero, BitVec.reduceGetLsb, Nat.reduceAdd,
    and_true, and_assoc, inClass_iff]

theorem encode_cdp_eq_arm {c : Cond} {opc1 crn crd cp : BitVec 4} {opc2 : BitVec 3} {crm : BitVec 4} {w : Word} :
    encode (.cdp c opc1 crn crd cp opc2 crm) = .arm w ↔ InClass c true true true w ∧ w.getLsbD 24 = false ∧
      w.extractLsb' 20 4 = opc1 ∧ fieldRn w = crn ∧ fieldRd w = crd ∧ fieldRs w = cp ∧ w.extractLsb' 5 3 = opc2 ∧
      w.getLsbD 4 = false ∧ fieldRm w = crm := by
  rw [encode, Encoding.arm.injEq, append_eq_iff_fields]
  simp only [↓field_eq_append_iff, field_eq_const_succ_iff, field_eq_const_zero, BitVec.reduceGetLsb, Nat.reduceAdd,
    and_true, and_assoc, inClass_iff, fieldRn, fieldRd, fieldRs, fieldRm]

theorem encode_swi_eq_arm {c : Cond} {imm : BitVec 24} {w : Word} : encode (.swi c imm) = .arm w ↔
    InClass c true true true w ∧ w.getLsbD 24 = true ∧ w.extractLsb' 0 24 = imm := by
  rw [encode, Encoding.arm.injEq, append_eq_iff_fields]
  simp only [↓field_eq_append_iff, field_eq_const_succ_iff, field_eq_const_zero, BitVec.reduceGetLsb, Nat.reduceAdd,
    and_true, and_assoc, inClass_iff]

end Sys2Proof
end

section
/-! The fields of an encoded Thumb instruction (30_encoding R150, R152), format by format. -/

namespace Sys2Proof

theorem encT5_eq_thumb {top imm : BitVec 5} {rs rd : LoReg} {h : Half} : encT5 top imm rs rd = .thumb h ↔
    h.extractLsb' 11 5 = top ∧ thumbImm5 h = imm ∧ thumbRs h = rs ∧ thumbRd h = rd := by
  rw [encT5, Encoding.thumb.injEq, append_eq_iff_fields]
  simp only [↓field_eq_append_iff, Nat.reduceAdd, and_assoc, thumbImm5, thumbRs, thumbRd]

theorem encT3_eq_thumb {top : BitVec 7} {f8 rs rd : BitVec 3} {h : Half} : encT3 top f8 rs rd = .thumb h ↔
    h.extractLsb' 9 7 = top ∧ thumbRn h = f8 ∧ thumbRs h = rs ∧ thumbRd h = rd := by
  rw [encT3, Encoding.thumb.injEq, append_eq_iff_fields]
  simp only [↓field_eq_append_iff, Nat.reduceAdd, and_assoc, thumbRn, thumbRs, thumbRd]

theorem encT8_eq_thumb {top : BitVec 5} {rd : LoReg} {imm : BitVec 8} {h : Half} : encT8 top rd imm = .thumb h ↔
    h.extractLsb' 11 5 = top ∧ thumbR8 h = rd ∧ thumbImm8 h = imm := by
  rw [encT8, Encoding.thumb.injEq, append_eq_iff_fields]
  simp only [↓field_eq_append_iff, Nat.reduceAdd, and_assoc, thumbR8, thumbImm8]

theorem encT4_eq_thumb {op : BitVec 4} {rs rd : LoReg} {h : Half} : encT4 op rs rd = .thumb h ↔
    h.extractLsb' 10 6 = 0b010000#6 ∧ h.extractLsb' 6 4 = op ∧ thumbRs h = rs ∧ thumbRd h = rd := by
  rw [encT4, Encoding.thumb.injEq, append_eq_iff_fields]
  simp only [↓field_eq_append_iff, Nat.reduceAdd, and_assoc, thumbRs, thumbRd]

theorem encTHi_eq_thumb {op : BitVec 2} {h1 : Bool} {rs : Reg} {rd : LoReg} {h : Half} : encTHi op h1 rs rd = .thumb h ↔
    h.extractLsb' 10 6 = 0b010001#6 ∧ h.getLsbD 9 = op.getLsbD 1 ∧ h.getLsbD 8 = op.getLsbD 0 ∧ h.getLsbD 7 = h1 ∧
      h.extractLsb' 3 4 = rs ∧ thumbRd h = rd := by
  rw [encTHi, Encoding.thumb.injEq, append_eq_iff_fields]
  simp only [↓field_eq_append_iff, field_eq_bit1_iff, Nat.reduceAdd, and_assoc, field_eq_iff_bits (v := op),
    Nat.forall_lt_succ_right, Nat.not_lt_zero, false_imp_iff, implies_true, true_and, Nat.add_zero, thumbRd]
  tauto

/-- The full number `H2 : Rs` of a high register in format 5. -/
theorem field_eq_hiReg_iff {hs : LoReg} {h : Half} :
    h.extractLsb' 3 4 = 1#1 ++ hs ↔ h.getLsbD 6 = true ∧ thumbRs h = hs := by
  rw [field_eq_append_iff (m := 1) (n := 3), ← field_eq_bit1_iff]
  rfl

theorem encTByte_eq_thumb {top imm : BitVec 8} {h : Half} : encTByte top imm = .thumb h ↔
    h.extractLsb' 12 4 = top.extractLsb' 4 4 ∧ h.extractLsb' 8 4 = top.extractLsb' 0 4 ∧ thumbImm8 h = imm := by
  rw [encTByte, Encoding.thumb.injEq, append_eq_iff_fields, ← and_assoc, ← field_eq_append_iff (m := 4) (n := 4) (s := 8),
    BitVec.extractLsb'_append_extractLsb' (w := 4) (len := 4)]
  rfl

theorem encT11_eq_thumb {top : BitVec 5} {imm : BitVec 11} {h : Half} : encT11 top imm = .thumb h ↔
    h.extractLsb' 11 5 = top ∧ thumbImm11 h = imm := by
  rw [encT11, Encoding.thumb.injEq, append_eq_iff_fields]
  rfl

theorem encode_tAddSpImm_eq_thumb {imm : BitVec 7} {h : Half} : encode (.tAddSpImm imm) = .thumb h ↔
    h.extractLsb' 8 8 = 0b10110000#8 ∧ h.getLsbD 7 = false ∧ h.extractLsb' 0 7 = imm := by
  rw [encode, Encoding.thumb.injEq, append_eq_iff_fields, field_eq_append_iff, and_assoc, ← field_eq_bit1_iff]
  rfl

theorem encode_tSubSpImm_eq_thumb {imm : BitVec 7} {h : Half} : encode (.tSubSpImm imm) = .thumb h ↔
    h.extractLsb' 8 8 = 0b10110000#8 ∧ h.getLsbD 7 = true ∧ h.extractLsb' 0 7 = imm := by
  rw [encode, Encoding.thumb.injEq, append_eq_iff_fields, field_eq_append_iff, and_assoc, ← field_eq_bit1_iff]
  rfl

theorem encode_tPush_eq_thumb {r : Bool} {list : BitVec 8} {h : Half} : encode (.tPush r list) = .thumb h ↔
    h.extractLsb' 9 7 = 0b1011010#7 ∧ h.getLsbD 8 = r ∧ thumbImm8 h = list := by
  rw [encode, Encoding.thumb.injEq, append_eq_iff_fields, field_eq_append_iff, and_assoc, field_eq_bit1_iff]
  rfl

theorem encode_tPop_eq_thumb {r : Bool} {list : BitVec 8} {h : Half} : encode (.tPop r list) = .thumb h ↔
    h.extractLsb' 9 7 = 0b1011110#7 ∧ h.getLsbD 8 = r ∧ thumbImm8 h = list := by
  rw [encode, Encoding.thumb.injEq, append_eq_iff_fields, field_eq_append_iff, and_assoc, field_eq_bit1_iff]
  rfl

end Sys2Proof
end

section
/-! Decoding drops no bit: for each function of the decoder, the instruction it answers encodes to the word it was given. -/

namespace Sys2Proof

/-- The decoder's answer is an instruction whose encoding is `e`, or a rejection. -/
def Decoded.Faithful (e : Encoding) : Decoded → Prop
  | .ok i => encode i = e
  | .error _ => True

@[simp] theorem Decoded.faithful_ok {e : Encoding} {i : Instr} : Decoded.Faithful e (.ok i) ↔ encode i = e := .rfl

@[simp] theorem Decoded.faithful_error {e : Encoding} {x : DecodeError} : Decoded.Faithful e (.error x) := trivial

@[simp] theorem Decoded.faithful_ite {e : Encoding} {p : Prop} [Decidable p] {d d' : Decoded} :
    Decoded.Faithful e (if p then d else d') ↔ (p → Decoded.Faithful e d) ∧ (¬p → Decoded.Faithful e d') := by
  split <;> simp [*]

theorem Decoded.faithful_ok_ite {e : Encoding} {p : Prop} [Decidable p] {i j : Instr} :
    Decoded.Faithful e (.ok (if p then i else j)) ↔ (p → encode i = e) ∧ (¬p → encode j = e) := by
  split <;> simp [*]

@[simp] theorem Decoded.faithful_sbz {e : Encoding} {n : Nat} {v : BitVec n} {i : Instr} :
    Decoded.Faithful e (sbz v i) ↔ (v = 0#n → encode i = e) := by
  simp [sbz]

/-! ## ARM -/

/-- The opcodes 10xx, the compares, stand with S = 1 (R142): the same bits with S = 0 are BX, MRS and MSR (R145). -/
def CompareSets (w : Word) : Prop :=
  8 ≤ (w.extractLsb' 21 4).toNat → (w.extractLsb' 21 4).toNat < 12 → w.getLsbD 20 = true

theorem compareSets_iff {w : Word} : CompareSets w ↔ (w.getLsbD 24 && !w.getLsbD 23 && !w.getLsbD 20) = false := by
  have h24 : w.getLsbD 24 = (w.extractLsb' 21 4).getLsbD 3 := by simp
  have h23 : w.getLsbD 23 = (w.extractLsb' 21 4).getLsbD 2 := by simp
  rw [CompareSets, h24, h23]
  generalize w.extractLsb' 21 4 = op
  generalize w.getLsbD 20 = s
  revert op s
  decide

theorem decodeDpImm_faithful {c : Cond} {w : Word} (hc : InClass c false false true w) (hs : CompareSets w) :
    Decoded.Faithful (.arm w) (decodeDpImm c w) := by
  have hop := (w.extractLsb' 21 4).isLt
  unfold CompareSets at hs
  interval_cases h : (w.extractLsb' 21 4).toNat
  all_goals
    simp [decodeDpImm, encode, encDpImm_eq_arm, ← BitVec.toNat_inj (n := 4), -BitVec.extractLsb'_toNat,
      -BitVec.getLsbD_eq_getElem, *]

theorem decodeDpShImm_faithful {c : Cond} {w : Word} (hc : InClass c false false false w) (h4 : w.getLsbD 4 = false)
    (hs : CompareSets w) : Decoded.Faithful (.arm w) (decodeDpShImm c w) := by
  have hop := (w.extractLsb' 21 4).isLt
  unfold CompareSets at hs
  interval_cases h : (w.extractLsb' 21 4).toNat
  all_goals
    simp [decodeDpShImm, encode, encDpShImm_eq_arm, ← BitVec.toNat_inj (n := 4), -BitVec.extractLsb'_toNat,
      -BitVec.getLsbD_eq_getElem, *]

theorem decodeDpShReg_faithful {c : Cond} {w : Word} (hc : InClass c false false false w) (h7 : w.getLsbD 7 = false)
    (h4 : w.getLsbD 4 = true) (hs : CompareSets w) : Decoded.Faithful (.arm w) (decodeDpShReg c w) := by
  have hop := (w.extractLsb' 21 4).isLt
  unfold CompareSets at hs
  interval_cases h : (w.extractLsb' 21 4).toNat
  all_goals
    simp [decodeDpShReg, encode, encDpShReg_eq_arm, ← BitVec.toNat_inj (n := 4), -BitVec.extractLsb'_toNat,
      -BitVec.getLsbD_eq_getElem, *]

theorem decodeSingle_faithful {c : Cond} {b25 : Bool} {w : Word} (hc : InClass c false true b25 w)
    (h4 : b25 = true → w.getLsbD 4 = false) : Decoded.Faithful (.arm w) (decodeSingle c w) := by
  rw [decodeSingle, hc.bit25]
  split <;> simp +contextual [↓Decoded.faithful_ok_ite, encode, encSingleImm_eq_arm, encSingleReg_eq_arm,
    -BitVec.getLsbD_eq_getElem, *]

theorem decodeMulSwap_faithful {c : Cond} {w : Word} (hc : InClass c false false false w) (h7 : w.getLsbD 7 = true)
    (h6 : w.getLsbD 6 = false) (h5 : w.getLsbD 5 = false) (h4 : w.getLsbD 4 = true) :
    Decoded.Faithful (.arm w) (decodeMulSwap c w) := by
  unfold decodeMulSwap
  simp only
  split <;> simp +contextual [encode, encMul_eq_arm, -BitVec.getLsbD_eq_getElem, *]

theorem decodeHalf_faithful {c : Cond} {w : Word} (hc : InClass c false false false w) (h7 : w.getLsbD 7 = true)
    (h4 : w.getLsbD 4 = true) : Decoded.Faithful (.arm w) (decodeHalf c w) := by
  unfold decodeHalf
  simp only
  split <;> simp +contextual [encode, encHalfImm_eq_arm, encHalfReg_eq_arm, -BitVec.getLsbD_eq_getElem, *]

theorem decodeControl_faithful {c : Cond} {w : Word} (hc : InClass c false false false w) (h24 : w.getLsbD 24 = true)
    (h23 : w.getLsbD 23 = false) (h20 : w.getLsbD 20 = false) : Decoded.Faithful (.arm w) (decodeControl c w) := by
  simp +contextual [decodeControl, encode_bx_eq_arm, encode_mrs_eq_arm, encode_msrReg_eq_arm, -BitVec.getLsbD_eq_getElem, *]

theorem decodeBlock_faithful {c : Cond} {w : Word} (hc : InClass c true false false w) :
    Decoded.Faithful (.arm w) (decodeBlock c w) := by
  unfold decodeBlock
  simp only
  split
  case h_2 | h_3 => simp only [Decoded.faithful_ok, encode, encBlock_eq_arm, and_self, *]
  all_goals simp only [Decoded.faithful_ok, encode, encBlock_list_eq_arm, and_self, *]

theorem decodeCpTransfer_faithful {c : Cond} {w : Word} (hc : InClass c true true false w) :
    Decoded.Faithful (.arm w) (decodeCpTransfer c w) := by
  simp +contextual [decodeCpTransfer, encode, encCpTransfer_eq_arm, -BitVec.getLsbD_eq_getElem, *]

theorem decodeCpSwi_faithful {c : Cond} {w : Word} (hc : InClass c true true true w) :
    Decoded.Faithful (.arm w) (decodeCpSwi c w) := by
  unfold decodeCpSwi
  split <;> simp [↓encode_swi_eq_arm, ↓encode_cdp_eq_arm, encode, encCpRegister_eq_arm, -BitVec.getLsbD_eq_getElem, *]

theorem decodeReg_faithful {c : Cond} {w : Word} (hc : InClass c false false false w) :
    Decoded.Faithful (.arm w) (decodeReg c w) := by
  unfold decodeReg
  split
  case h_1 h7 h4 =>
    split
    case isTrue h65 =>
      obtain ⟨h6, h5⟩ : w.getLsbD 6 = false ∧ w.getLsbD 5 = false := by
        simpa only [Bool.and_eq_true, Bool.not_eq_true'] using h65
      exact decodeMulSwap_faithful hc h7 h6 h5 h4
    case isFalse => exact decodeHalf_faithful hc h7 h4
  case h_2 h74 =>
    split
    case isTrue hctl =>
      obtain ⟨⟨h24, h23⟩, h20⟩ : (w.getLsbD 24 = true ∧ w.getLsbD 23 = false) ∧ w.getLsbD 20 = false := by
        simpa only [Bool.and_eq_true, Bool.not_eq_true'] using hctl
      exact decodeControl_faithful hc h24 h23 h20
    case isFalse hctl =>
      have hs := compareSets_iff.2 (Bool.eq_false_of_not_eq_true hctl)
      split
      case isTrue h4 => exact decodeDpShReg_faithful hc (Bool.eq_false_of_not_eq_true (h74 · h4)) h4 hs
      case isFalse h4 => exact decodeDpShImm_faithful hc (Bool.eq_false_of_not_eq_true h4) hs

theorem decodeImm_faithful {c : Cond} {w : Word} (hc : InClass c false false true w) :
    Decoded.Faithful (.arm w) (decodeImm c w) := by
  unfold decodeImm
  split
  case isTrue hctl =>
    obtain ⟨⟨h24, h23⟩, h20⟩ : (w.getLsbD 24 = true ∧ w.getLsbD 23 = false) ∧ w.getLsbD 20 = false := by
      simpa only [Bool.and_eq_true, Bool.not_eq_true'] using hctl
    simp +contextual [encode_msrImm_eq_arm, -BitVec.getLsbD_eq_getElem, *]
  case isFalse hctl => exact decodeDpImm_faithful hc (compareSets_iff.2 (Bool.eq_false_of_not_eq_true hctl))

theorem decodeArm_faithful (w : Word) : Decoded.Faithful (.arm w) (decodeArm w) := by
  unfold decodeArm
  split
  case h_1 => trivial
  case h_2 c hcond =>
    have hc {b27 b26 b25 : Bool} (h27 : w.getLsbD 27 = b27) (h26 : w.getLsbD 26 = b26) (h25 : w.getLsbD 25 = b25) :
        InClass c b27 b26 b25 w := ⟨Cond.eq_bits_of_ofBits hcond, h27, h26, h25⟩
    split
    case h_1 h27 h26 h25 => exact decodeReg_faithful (hc h27 h26 h25)
    case h_2 h27 h26 h25 => exact decodeImm_faithful (hc h27 h26 h25)
    case h_3 h27 h26 h25 => exact decodeSingle_faithful (hc h27 h26 h25) nofun
    case h_4 h27 h26 h25 =>
      split
      case isTrue h4 => exact encode_undef_eq_arm.2 ⟨hc h27 h26 h25, rfl, h4, rfl⟩
      case isFalse h4 => exact decodeSingle_faithful (hc h27 h26 h25) fun _ => Bool.eq_false_of_not_eq_true h4
    case h_5 h27 h26 h25 => exact decodeBlock_faithful (hc h27 h26 h25)
    case h_6 h27 h26 h25 =>
      split
      case isTrue h24 => exact encode_bl_eq_arm.2 ⟨hc h27 h26 h25, h24, rfl⟩
      case isFalse h24 => exact encode_b_eq_arm.2 ⟨hc h27 h26 h25, Bool.eq_false_of_not_eq_true h24, rfl⟩
    case h_7 h27 h26 h25 => exact decodeCpTransfer_faithful (hc h27 h26 h25)
    case h_8 h27 h26 h25 => exact decodeCpSwi_faithful (hc h27 h26 h25)

/-! ## Thumb -/

theorem decodeShiftAdd_faithful {h : Half} (h15 : h.getLsbD 15 = false) (h14 : h.getLsbD 14 = false)
    (h13 : h.getLsbD 13 = false) : Decoded.Faithful (.thumb h) (decodeShiftAdd h) := by
  unfold decodeShiftAdd
  split
  case h_4 => split <;> simp [encode, encT3_eq_thumb, field_eq_const_succ_iff, -BitVec.getLsbD_eq_getElem, *]
  all_goals simp [encode, encT5_eq_thumb, field_eq_const_succ_iff, -BitVec.getLsbD_eq_getElem, *]

theorem decodeImmThumb_faithful {h : Half} (h15 : h.getLsbD 15 = false) (h14 : h.getLsbD 14 = false)
    (h13 : h.getLsbD 13 = true) : Decoded.Faithful (.thumb h) (decodeImmThumb h) := by
  unfold decodeImmThumb
  split <;> simp [encode, encT8_eq_thumb, field_eq_const_succ_iff, -BitVec.getLsbD_eq_getElem, *]

theorem decodeAluThumb_faithful {h : Half} (htop : h.extractLsb' 10 6 = 0b010000#6) :
    Decoded.Faithful (.thumb h) (decodeAluThumb h) := by
  have hop := (h.extractLsb' 6 4).isLt
  interval_cases hop : (h.extractLsb' 6 4).toNat
  all_goals simp [decodeAluThumb, encode, encT4_eq_thumb, ← BitVec.toNat_inj (n := 4), -BitVec.extractLsb'_toNat, *]

theorem decodeHi_faithful {h : Half} (htop : h.extractLsb' 10 6 = 0b010001#6) :
    Decoded.Faithful (.thumb h) (decodeHi h) := by
  unfold decodeHi
  simp only
  split <;> simp +contextual [encode, encTHi_eq_thumb, field_eq_hiReg_iff, -BitVec.getLsbD_eq_getElem, *]

theorem decodeRegThumb_faithful {h : Half} (h15 : h.getLsbD 15 = false) (h14 : h.getLsbD 14 = true)
    (h13 : h.getLsbD 13 = false) : Decoded.Faithful (.thumb h) (decodeRegThumb h) := by
  unfold decodeRegThumb
  split
  case h_1 => exact decodeAluThumb_faithful (by simp [field_eq_const_succ_iff, -BitVec.getLsbD_eq_getElem, *])
  case h_2 => exact decodeHi_faithful (by simp [field_eq_const_succ_iff, -BitVec.getLsbD_eq_getElem, *])
  all_goals simp [encode, encT8_eq_thumb, encT3_eq_thumb, field_eq_const_succ_iff, -BitVec.getLsbD_eq_getElem, *]

theorem decodeOffThumb_faithful {h : Half} (h15 : h.getLsbD 15 = false) (h14 : h.getLsbD 14 = true)
    (h13 : h.getLsbD 13 = true) : Decoded.Faithful (.thumb h) (decodeOffThumb h) := by
  unfold decodeOffThumb
  split <;> simp [encode, encT5_eq_thumb, field_eq_const_succ_iff, -BitVec.getLsbD_eq_getElem, *]

theorem decodeHalfSp_faithful {h : Half} (h15 : h.getLsbD 15 = true) (h14 : h.getLsbD 14 = false)
    (h13 : h.getLsbD 13 = false) : Decoded.Faithful (.thumb h) (decodeHalfSp h) := by
  unfold decodeHalfSp
  split <;> simp [encode, encT5_eq_thumb, encT8_eq_thumb, field_eq_const_succ_iff, -BitVec.getLsbD_eq_getElem, *]

theorem decodeMiscThumb_faithful {h : Half} (h15 : h.getLsbD 15 = true) (h14 : h.getLsbD 14 = false)
    (h13 : h.getLsbD 13 = true) (h12 : h.getLsbD 12 = true) : Decoded.Faithful (.thumb h) (decodeMiscThumb h) := by
  unfold decodeMiscThumb
  split <;> simp +contextual [encode_tAddSpImm_eq_thumb, encode_tSubSpImm_eq_thumb, encode_tPush_eq_thumb,
    encode_tPop_eq_thumb, field_eq_const_succ_iff, -BitVec.getLsbD_eq_getElem, *]

theorem decodeCondThumb_faithful {h : Half} (htop : h.extractLsb' 12 4 = 0b1101#4) :
    Decoded.Faithful (.thumb h) (decodeCondThumb h) := by
  have hlt := (h.extractLsb' 8 4).isLt
  interval_cases hcond : (h.extractLsb' 8 4).toNat
  all_goals simp [decodeCondThumb, encode, encTByte_eq_thumb, ← BitVec.toNat_inj (n := 4), -BitVec.extractLsb'_toNat, *]

theorem decodeThumb_faithful (h : Half) : Decoded.Faithful (.thumb h) (decodeThumb h) := by
  unfold decodeThumb
  split
  case h_1 h15 h14 h13 => exact decodeShiftAdd_faithful h15 h14 h13
  case h_2 h15 h14 h13 => exact decodeImmThumb_faithful h15 h14 h13
  case h_3 h15 h14 h13 => exact decodeRegThumb_faithful h15 h14 h13
  case h_4 h15 h14 h13 => exact decodeOffThumb_faithful h15 h14 h13
  case h_5 h15 h14 h13 => exact decodeHalfSp_faithful h15 h14 h13
  case h_6 h15 h14 h13 =>
    split
    case h_3 h12 => exact decodeMiscThumb_faithful h15 h14 h13 h12
    all_goals simp [encode, encT8_eq_thumb, field_eq_const_succ_iff, -BitVec.getLsbD_eq_getElem, *]
  case h_7 h15 h14 h13 =>
    split
    case h_3 => exact decodeCondThumb_faithful (by simp [field_eq_const_succ_iff, -BitVec.getLsbD_eq_getElem, *])
    all_goals simp [encode, encT8_eq_thumb, field_eq_const_succ_iff, -BitVec.getLsbD_eq_getElem, *]
  case h_8 => split <;> simp [encode, encT11_eq_thumb, field_eq_const_succ_iff, -BitVec.getLsbD_eq_getElem, *]

/-- Settles O2: every answer of the decoder is faithful to the word it was given, class by class. -/
theorem decodeThenEncode : Obligations.DecodeThenEncode := by
  intro e i hi
  have hd : Decoded.Faithful e (decode e) := by
    cases e with
    | arm w => exact decodeArm_faithful w
    | thumb h => exact decodeThumb_faithful h
  rwa [hi] at hd

end Sys2Proof
end

section
/-! Encoding and decoding again: the fields of an encoded word lead the decoder back to the instruction, format by format. -/

namespace Sys2Proof

open Sys2Proof.Machine

@[simp] theorem sbz_zero {n : Nat} (i : Instr) : sbz 0#n i = .ok i := by
  simp [sbz]

/-! ## Which function of the decoder a word goes to (R145) -/

theorem decode_of_arm {e : Encoding} {d : Decoded} (he : ∃ w, e = .arm w) (hd : ∀ w, e = .arm w → decodeArm w = d) :
    decode e = d := by
  obtain ⟨w, rfl⟩ := he
  exact hd w rfl

theorem decode_of_thumb {e : Encoding} {d : Decoded} (he : ∃ h, e = .thumb h) (hd : ∀ h, e = .thumb h → decodeThumb h = d) :
    decode e = d := by
  obtain ⟨h, rfl⟩ := he
  exact hd h rfl

theorem decodeArm_reg {c : Cond} {w : Word} (hc : InClass c false false false w) : decodeArm w = decodeReg c w := by
  simp only [decodeArm, hc.cond, hc.bit27, hc.bit26, hc.bit25, Cond.ofBits_bits]

theorem decodeArm_imm {c : Cond} {w : Word} (hc : InClass c false false true w) : decodeArm w = decodeImm c w := by
  simp only [decodeArm, hc.cond, hc.bit27, hc.bit26, hc.bit25, Cond.ofBits_bits]

theorem decodeArm_singleImm {c : Cond} {w : Word} (hc : InClass c false true false w) : decodeArm w = decodeSingle c w := by
  simp only [decodeArm, hc.cond, hc.bit27, hc.bit26, hc.bit25, Cond.ofBits_bits]

theorem decodeArm_singleReg {c : Cond} {w : Word} (hc : InClass c false true true w) (h4 : w.getLsbD 4 = false) :
    decodeArm w = decodeSingle c w := by
  simp only [decodeArm, hc.cond, hc.bit27, hc.bit26, hc.bit25, Cond.ofBits_bits, h4, Bool.false_eq_true, if_false]

theorem decodeArm_undef {c : Cond} {w : Word} (hc : InClass c false true true w) (h4 : w.getLsbD 4 = true) :
    decodeArm w = .ok (.undef c (w.extractLsb' 5 20) (w.extractLsb' 0 4)) := by
  simp only [decodeArm, hc.cond, hc.bit27, hc.bit26, hc.bit25, Cond.ofBits_bits, h4, if_true]

theorem decodeArm_block {c : Cond} {w : Word} (hc : InClass c true false false w) : decodeArm w = decodeBlock c w := by
  simp only [decodeArm, hc.cond, hc.bit27, hc.bit26, hc.bit25, Cond.ofBits_bits]

theorem decodeArm_branch {c : Cond} {w : Word} (hc : InClass c true false true w) :
    decodeArm w = .ok (if w.getLsbD 24 then .bl c (w.extractLsb' 0 24) else .b c (w.extractLsb' 0 24)) := by
  simp only [decodeArm, hc.cond, hc.bit27, hc.bit26, hc.bit25, Cond.ofBits_bits, apply_ite Except.ok]

theorem decodeArm_cpTransfer {c : Cond} {w : Word} (hc : InClass c true true false w) :
    decodeArm w = decodeCpTransfer c w := by
  simp only [decodeArm, hc.cond, hc.bit27, hc.bit26, hc.bit25, Cond.ofBits_bits]

theorem decodeArm_cpSwi {c : Cond} {w : Word} (hc : InClass c true true true w) : decodeArm w = decodeCpSwi c w := by
  simp only [decodeArm, hc.cond, hc.bit27, hc.bit26, hc.bit25, Cond.ofBits_bits]

theorem decodeReg_transfer {c : Cond} {w : Word} (h7 : w.getLsbD 7 = true) (h4 : w.getLsbD 4 = true) :
    decodeReg c w = if !w.getLsbD 6 && !w.getLsbD 5 then decodeMulSwap c w else decodeHalf c w := by
  rw [decodeReg, h7, h4]

theorem decodeReg_control {c : Cond} {w : Word} (h74 : w.getLsbD 7 = false ∨ w.getLsbD 4 = false) (h24 : w.getLsbD 24 = true)
    (h23 : w.getLsbD 23 = false) (h20 : w.getLsbD 20 = false) : decodeReg c w = decodeControl c w := by
  rw [decodeReg, h24, h23, h20]
  obtain h | h := h74 <;> rw [h]
  · rfl
  · cases w.getLsbD 7 <;> rfl

/-! ## Data processing: the operation is left to the opcode -/

theorem decode_encDpImm {c : Cond} {op : BitVec 4} {s : Bool} {rn rd : Reg} {o : RotImm} {d : Decoded}
    (hs : 8 ≤ op.toNat → op.toNat < 12 → s = true)
    (hd : ∀ w, w.extractLsb' 21 4 = op → w.getLsbD 20 = s → fieldRn w = rn → fieldRd w = rd → fieldImm w = o →
      decodeDpImm c w = d) : decode (encDpImm c op s rn rd o) = d := by
  refine decode_of_arm ⟨_, rfl⟩ fun w hw => ?_
  obtain ⟨hc, rfl, rfl, hrn, hrd, ho⟩ := encDpImm_eq_arm.1 hw
  rw [decodeArm_imm hc, decodeImm, compareSets_iff.1 hs]
  exact hd w rfl rfl hrn hrd ho

theorem decode_encDpShImm {c : Cond} {op : BitVec 4} {s : Bool} {rn rd : Reg} {o : ShImm} {d : Decoded}
    (hs : 8 ≤ op.toNat → op.toNat < 12 → s = true)
    (hd : ∀ w, w.extractLsb' 21 4 = op → w.getLsbD 20 = s → fieldRn w = rn → fieldRd w = rd → fieldShImm w = o →
      decodeDpShImm c w = d) : decode (encDpShImm c op s rn rd o) = d := by
  refine decode_of_arm ⟨_, rfl⟩ fun w hw => ?_
  obtain ⟨hc, rfl, rfl, hrn, hrd, h4, ho⟩ := encDpShImm_eq_arm.1 hw
  rw [decodeArm_reg hc, decodeReg, compareSets_iff.1 hs, h4]
  cases w.getLsbD 7 <;> exact hd w rfl rfl hrn hrd ho

theorem decode_encDpShReg {c : Cond} {op : BitVec 4} {s : Bool} {rn rd : Reg} {o : ShReg} {d : Decoded}
    (hs : 8 ≤ op.toNat → op.toNat < 12 → s = true)
    (hd : ∀ w, w.extractLsb' 21 4 = op → w.getLsbD 20 = s → fieldRn w = rn → fieldRd w = rd → fieldShReg w = o →
      decodeDpShReg c w = d) : decode (encDpShReg c op s rn rd o) = d := by
  refine decode_of_arm ⟨_, rfl⟩ fun w hw => ?_
  obtain ⟨hc, rfl, rfl, hrn, hrd, h7, h4, ho⟩ := encDpShReg_eq_arm.1 hw
  rw [decodeArm_reg hc, decodeReg, compareSets_iff.1 hs, h7, h4]
  exact hd w rfl rfl hrn hrd ho

/-! ## The two instruction sets -/

/-- A word with bit 4 clear is no BX. -/
theorem field_ne_bx {w : Word} (h4 : w.getLsbD 4 = false) : w.extractLsb' 4 24 ≠ 0x12FFF1#24 := by
  intro hbx
  have h4' : w.getLsbD 4 = true := field_eq_iff_bits.1 hbx 0 (by decide)
  exact Bool.false_ne_true (h4.symm.trans h4')

/-- The 106 ARM instructions, grouped by format: the fields of the encoded word are those of the instruction, and the decoder reads
nothing else. -/
theorem decode_encode_arm {i : Instr} (hi : isThumb i = false) : decode (encode i) = .ok i := by
  cases i with
  | b =>
    refine decode_of_arm ⟨_, rfl⟩ fun w hw => ?_
    obtain ⟨hc, h24, hoff⟩ := encode_b_eq_arm.1 hw
    simp [decodeArm_branch hc, -BitVec.getLsbD_eq_getElem, *]
  | bl =>
    refine decode_of_arm ⟨_, rfl⟩ fun w hw => ?_
    obtain ⟨hc, h24, hoff⟩ := encode_bl_eq_arm.1 hw
    simp [decodeArm_branch hc, -BitVec.getLsbD_eq_getElem, *]
  | bx =>
    refine decode_of_arm ⟨_, rfl⟩ fun w hw => ?_
    obtain ⟨hc, hbx, hrn⟩ := encode_bx_eq_arm.1 hw
    have hbit := field_eq_iff_bits.1 hbx
    rw [decodeArm_reg hc,
      decodeReg_control (.inl (hbit 3 (by decide))) (hbit 20 (by decide)) (hbit 19 (by decide)) (hbit 16 (by decide))]
    simp [decodeControl, hbx, hrn]
  | andImm | eorImm | subImm | rsbImm | addImm | adcImm | sbcImm | rscImm | tstImm | teqImm | cmpImm | cmnImm | orrImm |
  movImm | bicImm | mvnImm =>
    refine decode_encDpImm (by simp) fun w hop hs hrn hrd ho => ?_
    simp [decodeDpImm, -BitVec.getLsbD_eq_getElem, *]
  | andShImm | eorShImm | subShImm | rsbShImm | addShImm | adcShImm | sbcShImm | rscShImm | tstShImm | teqShImm | cmpShImm
  | cmnShImm | orrShImm | movShImm | bicShImm | mvnShImm =>
    refine decode_encDpShImm (by simp) fun w hop hs hrn hrd ho => ?_
    simp [decodeDpShImm, -BitVec.getLsbD_eq_getElem, *]
  | andShReg | eorShReg | subShReg | rsbShReg | addShReg | adcShReg | sbcShReg | rscShReg | tstShReg | teqShReg | cmpShReg
  | cmnShReg | orrShReg | movShReg | bicShReg | mvnShReg =>
    refine decode_encDpShReg (by simp) fun w hop hs hrn hrd ho => ?_
    simp [decodeDpShReg, -BitVec.getLsbD_eq_getElem, *]
  | mrs =>
    refine decode_of_arm ⟨_, rfl⟩ fun w hw => ?_
    obtain ⟨hc, h24, h23, hspsr, h21, h20, h19, hrd, h11⟩ := encode_mrs_eq_arm.1 hw
    have h4 : w.getLsbD 4 = false := field_eq_iff_bits.1 h11 4 (by decide)
    rw [decodeArm_reg hc, decodeReg_control (.inr h4) h24 h23 h20]
    simp [decodeControl, field_ne_bx h4, -BitVec.getLsbD_eq_getElem, *]
  | msrReg =>
    refine decode_of_arm ⟨_, rfl⟩ fun w hw => ?_
    obtain ⟨hc, h24, h23, hspsr, h21, h20, hmask, h15, h11, hrm⟩ := encode_msrReg_eq_arm.1 hw
    have h4 : w.getLsbD 4 = false := field_eq_iff_bits.1 h11 0 (by decide)
    rw [decodeArm_reg hc, decodeReg_control (.inr h4) h24 h23 h20]
    simp [decodeControl, field_ne_bx h4, -BitVec.getLsbD_eq_getElem, *]
  | msrImm =>
    refine decode_of_arm ⟨_, rfl⟩ fun w hw => ?_
    obtain ⟨hc, h24, h23, hspsr, h21, h20, hmask, h15, ho⟩ := encode_msrImm_eq_arm.1 hw
    simp [decodeArm_imm hc, decodeImm, -BitVec.getLsbD_eq_getElem, *]
  | mul | mla | umull | umlal | smull | smlal | swp | swpb =>
    refine decode_of_arm ⟨_, rfl⟩ fun w hw => ?_
    obtain ⟨hc, h24, h23, h22, h21, hs, hrn, hrd, hrs, h7, h6, h5, h4, hrm⟩ := encMul_eq_arm.1 hw
    simp [decodeArm_reg hc, decodeReg_transfer, decodeMulSwap, -BitVec.getLsbD_eq_getElem, *]
  | strhReg | ldrhReg | ldrsbReg | ldrshReg =>
    refine decode_of_arm ⟨_, rfl⟩ fun w hw => ?_
    obtain ⟨hc, hp, hu, h22, hwb, hl, hrn, hrd, hrs, h7, h6, h5, h4, hrm⟩ := encHalfReg_eq_arm.1 hw
    simp [decodeArm_reg hc, decodeReg_transfer, decodeHalf, -BitVec.getLsbD_eq_getElem, *]
  | strhImm | ldrhImm | ldrsbImm | ldrshImm =>
    refine decode_of_arm ⟨_, rfl⟩ fun w hw => ?_
    obtain ⟨hc, hp, hu, h22, hwb, hl, hrn, hrd, h7, h6, h5, h4, himm⟩ := encHalfImm_eq_arm.1 hw
    simp [decodeArm_reg hc, decodeReg_transfer, decodeHalf, -BitVec.getLsbD_eq_getElem, *]
  | strImmPre | strImmPost | ldrImmPre | ldrImmPost | strbImmPre | strbImmPost | ldrbImmPre | ldrbImmPost | strtImm |
  ldrtImm | strbtImm | ldrbtImm =>
    refine decode_of_arm ⟨_, rfl⟩ fun w hw => ?_
    obtain ⟨hc, hp, hu, hb, hwb, hl, hrn, hrd, himm⟩ := encSingleImm_eq_arm.1 hw
    simp [decodeArm_singleImm hc, decodeSingle, hc.bit25, -BitVec.getLsbD_eq_getElem, *]
  | strRegPre | strRegPost | ldrRegPre | ldrRegPost | strbRegPre | strbRegPost | ldrbRegPre | ldrbRegPost | strtReg |
  ldrtReg | strbtReg | ldrbtReg =>
    refine decode_of_arm ⟨_, rfl⟩ fun w hw => ?_
    obtain ⟨hc, hp, hu, hb, hwb, hl, hrn, hrd, h4, ho⟩ := encSingleReg_eq_arm.1 hw
    simp [decodeArm_singleReg hc h4, decodeSingle, hc.bit25, -BitVec.getLsbD_eq_getElem, *]
  | undef =>
    refine decode_of_arm ⟨_, rfl⟩ fun w hw => ?_
    obtain ⟨hc, hhi, h4, hlo⟩ := encode_undef_eq_arm.1 hw
    simp [decodeArm_undef hc h4, -BitVec.getLsbD_eq_getElem, *]
  | ldm | stm | stmUser =>
    refine decode_of_arm ⟨_, rfl⟩ fun w hw => ?_
    obtain ⟨hc, hp, hu, hs, hwb, hl, hrn, hlist⟩ := encBlock_list_eq_arm.1 hw
    simp [decodeArm_block hc, decodeBlock, -BitVec.getLsbD_eq_getElem, *]
  | ldmRet | ldmUser =>
    refine decode_of_arm ⟨_, rfl⟩ fun w hw => ?_
    obtain ⟨hc, hp, hu, hs, hwb, hl, hrn, h15, hlist⟩ := encBlock_eq_arm.1 hw
    simp [decodeArm_block hc, decodeBlock, -BitVec.getLsbD_eq_getElem, *]
  | stc | ldc =>
    refine decode_of_arm ⟨_, rfl⟩ fun w hw => ?_
    obtain ⟨hc, hp, hu, hn, hwb, hl, hrn, hcrd, hcp, himm⟩ := encCpTransfer_eq_arm.1 hw
    simp [decodeArm_cpTransfer hc, decodeCpTransfer, -BitVec.getLsbD_eq_getElem, *]
  | cdp =>
    refine decode_of_arm ⟨_, rfl⟩ fun w hw => ?_
    obtain ⟨hc, h24, hopc1, hcrn, hcrd, hcp, hopc2, h4, hcrm⟩ := encode_cdp_eq_arm.1 hw
    simp [decodeArm_cpSwi hc, decodeCpSwi, -BitVec.getLsbD_eq_getElem, *]
  | mcr | mrc =>
    refine decode_of_arm ⟨_, rfl⟩ fun w hw => ?_
    obtain ⟨hc, h24, hopc1, hl, hcrn, hrd, hcp, hopc2, h4, hcrm⟩ := encCpRegister_eq_arm.1 hw
    simp [decodeArm_cpSwi hc, decodeCpSwi, -BitVec.getLsbD_eq_getElem, *]
  | swi =>
    refine decode_of_arm ⟨_, rfl⟩ fun w hw => ?_
    obtain ⟨hc, h24, himm⟩ := encode_swi_eq_arm.1 hw
    simp [decodeArm_cpSwi hc, decodeCpSwi, -BitVec.getLsbD_eq_getElem, *]
  | _ => cases hi

/-- The 77 Thumb instructions, grouped by format. -/
theorem decode_encode_thumb {i : Instr} (hi : isThumb i = true) : decode (encode i) = .ok i := by
  cases i with
  | tLslImm | tLsrImm | tAsrImm | tStrImm | tLdrImm | tStrbImm | tLdrbImm | tStrhImm | tLdrhImm =>
    refine decode_of_thumb ⟨_, rfl⟩ fun h hh => ?_
    obtain ⟨htop, himm, hrs, hrd⟩ := encT5_eq_thumb.1 hh
    simp only [field_eq_const_succ_iff, field_eq_const_zero, Nat.reduceAdd, BitVec.reduceGetLsb, and_true] at htop
    simp [decodeThumb, decodeShiftAdd, decodeOffThumb, decodeHalfSp, -BitVec.getLsbD_eq_getElem, *]
  | tAddReg | tSubReg | tAddImm3 | tSubImm3 | tStrReg | tStrbReg | tLdrReg | tLdrbReg | tStrhReg | tLdrhReg | tLdsbReg |
  tLdshReg =>
    refine decode_of_thumb ⟨_, rfl⟩ fun h hh => ?_
    obtain ⟨htop, hrn, hrs, hrd⟩ := encT3_eq_thumb.1 hh
    simp only [field_eq_const_succ_iff, field_eq_const_zero, Nat.reduceAdd, BitVec.reduceGetLsb, and_true] at htop
    simp [decodeThumb, decodeShiftAdd, decodeRegThumb, -BitVec.getLsbD_eq_getElem, *]
  | tMovImm | tCmpImm | tAddImm8 | tSubImm8 | tLdrPc | tStrSp | tLdrSp | tAddPc | tAddSp | tStmia | tLdmia =>
    refine decode_of_thumb ⟨_, rfl⟩ fun h hh => ?_
    obtain ⟨htop, hrd, himm⟩ := encT8_eq_thumb.1 hh
    simp only [field_eq_const_succ_iff, field_eq_const_zero, Nat.reduceAdd, BitVec.reduceGetLsb, and_true] at htop
    simp [decodeThumb, decodeImmThumb, decodeRegThumb, decodeHalfSp, -BitVec.getLsbD_eq_getElem, *]
  | tAnd | tEor | tLslReg | tLsrReg | tAsrReg | tAdc | tSbc | tRorReg | tTst | tNeg | tCmpReg | tCmn | tOrr | tMul | tBic
  | tMvn =>
    refine decode_of_thumb ⟨_, rfl⟩ fun h hh => ?_
    obtain ⟨htop, hop, hrs, hrd⟩ := encT4_eq_thumb.1 hh
    simp only [field_eq_const_succ_iff, field_eq_const_zero, Nat.reduceAdd, BitVec.reduceGetLsb, and_true] at htop
    simp [decodeThumb, decodeRegThumb, decodeAluThumb, -BitVec.getLsbD_eq_getElem, *]
  | tAddHd | tCmpHd | tMovHd =>
    refine decode_of_thumb ⟨_, rfl⟩ fun h hh => ?_
    obtain ⟨htop, h9, h8, h7, hrs, hrd⟩ := encTHi_eq_thumb.1 hh
    simp only [field_eq_const_succ_iff, field_eq_const_zero, Nat.reduceAdd, BitVec.reduceGetLsb, and_true] at htop
    simp [decodeThumb, decodeRegThumb, decodeHi, -BitVec.getLsbD_eq_getElem, *]
  | tAddHs | tCmpHs | tMovHs =>
    refine decode_of_thumb ⟨_, rfl⟩ fun h hh => ?_
    obtain ⟨htop, h9, h8, h7, hrs, hrd⟩ := encTHi_eq_thumb.1 hh
    obtain ⟨h6, hhs⟩ := field_eq_hiReg_iff.1 hrs
    simp only [field_eq_const_succ_iff, field_eq_const_zero, Nat.reduceAdd, BitVec.reduceGetLsb, and_true] at htop
    simp [decodeThumb, decodeRegThumb, decodeHi, -BitVec.getLsbD_eq_getElem, *]
  | tBx =>
    refine decode_of_thumb ⟨_, rfl⟩ fun h hh => ?_
    obtain ⟨htop, h9, h8, h7, hrs, hrd⟩ := encTHi_eq_thumb.1 hh
    simp only [field_eq_const_succ_iff, field_eq_const_zero, Nat.reduceAdd, BitVec.reduceGetLsb, and_true] at htop
    simp [decodeThumb, decodeRegThumb, decodeHi, -BitVec.getLsbD_eq_getElem, *]
  | tAddSpImm =>
    refine decode_of_thumb ⟨_, rfl⟩ fun h hh => ?_
    obtain ⟨htop, h7, himm⟩ := encode_tAddSpImm_eq_thumb.1 hh
    simp only [field_eq_const_succ_iff, field_eq_const_zero, Nat.reduceAdd, BitVec.reduceGetLsb, and_true] at htop
    simp [decodeThumb, decodeMiscThumb, -BitVec.getLsbD_eq_getElem, *]
  | tSubSpImm =>
    refine decode_of_thumb ⟨_, rfl⟩ fun h hh => ?_
    obtain ⟨htop, h7, himm⟩ := encode_tSubSpImm_eq_thumb.1 hh
    simp only [field_eq_const_succ_iff, field_eq_const_zero, Nat.reduceAdd, BitVec.reduceGetLsb, and_true] at htop
    simp [decodeThumb, decodeMiscThumb, -BitVec.getLsbD_eq_getElem, *]
  | tPush =>
    refine decode_of_thumb ⟨_, rfl⟩ fun h hh => ?_
    obtain ⟨htop, hr, hlist⟩ := encode_tPush_eq_thumb.1 hh
    simp only [field_eq_const_succ_iff, field_eq_const_zero, Nat.reduceAdd, BitVec.reduceGetLsb, and_true] at htop
    simp [decodeThumb, decodeMiscThumb, -BitVec.getLsbD_eq_getElem, *]
  | tPop =>
    refine decode_of_thumb ⟨_, rfl⟩ fun h hh => ?_
    obtain ⟨htop, hr, hlist⟩ := encode_tPop_eq_thumb.1 hh
    simp only [field_eq_const_succ_iff, field_eq_const_zero, Nat.reduceAdd, BitVec.reduceGetLsb, and_true] at htop
    simp [decodeThumb, decodeMiscThumb, -BitVec.getLsbD_eq_getElem, *]
  | tBeq | tBne | tBcs | tBcc | tBmi | tBpl | tBvs | tBvc | tBhi | tBls | tBge | tBlt | tBgt | tBle | tSwi =>
    refine decode_of_thumb ⟨_, rfl⟩ fun h hh => ?_
    obtain ⟨htop, hcond, hoff⟩ := encTByte_eq_thumb.1 hh
    simp only [field_eq_const_succ_iff, field_eq_const_zero, Nat.reduceAdd, BitVec.reduceGetLsb,
      BitVec.reduceExtractLsb', and_true] at htop
    simp [decodeThumb, decodeCondThumb, -BitVec.getLsbD_eq_getElem, *]
  | tB | tBlHi | tBlLo =>
    refine decode_of_thumb ⟨_, rfl⟩ fun h hh => ?_
    obtain ⟨htop, hoff⟩ := encT11_eq_thumb.1 hh
    simp only [field_eq_const_succ_iff, field_eq_const_zero, Nat.reduceAdd, BitVec.reduceGetLsb, and_true] at htop
    simp [decodeThumb, -BitVec.getLsbD_eq_getElem, *]
  | _ => cases hi

/-- Settles O1: both instruction sets, format by format. -/
theorem encodeThenDecode : Obligations.EncodeThenDecode := by
  intro i
  cases hi : isThumb i with
  | false => exact decode_encode_arm hi
  | true => exact decode_encode_thumb hi

end Sys2Proof
end

section
/-! What the decoder rejects: the unallocated Thumb halfwords and an ARM word with condition field 1111 (30_encoding R153, R144);
and words of the formats written out, and the condition table (R142, R150, R143). -/

namespace Sys2Proof

open Sys2Proof.Machine Sys2Proof.Claims

/-! ## Unallocated Thumb halfwords -/

/-- The decoder rejects exactly where `p`, and then as an unallocated Thumb halfword. -/
def Decoded.RejectsIff (p : Prop) : Decoded → Prop
  | .ok _ => ¬p
  | .error e => e = .unallocatedThumb ∧ p

@[simp] theorem Decoded.rejectsIff_ok {p : Prop} {i : Instr} : Decoded.RejectsIff p (.ok i) ↔ ¬p := .rfl

@[simp] theorem Decoded.rejectsIff_error {p : Prop} {e : DecodeError} :
    Decoded.RejectsIff p (.error e) ↔ e = .unallocatedThumb ∧ p := .rfl

@[simp] theorem Decoded.rejectsIff_ite {p q : Prop} [Decidable q] {d d' : Decoded} :
    Decoded.RejectsIff p (if q then d else d') ↔ (q → Decoded.RejectsIff p d) ∧ (¬q → Decoded.RejectsIff p d') := by
  split <;> simp [*]

theorem Decoded.RejectsIff.eq_error_iff {p : Prop} {d : Decoded} (hd : Decoded.RejectsIff p d) :
    d = .error .unallocatedThumb ↔ p := by
  cases d with
  | ok i => exact iff_of_false nofun hd
  | error e => exact iff_of_true (congrArg _ hd.1) hd.2

theorem Decoded.RejectsIff.error_eq {p : Prop} {e : DecodeError} (hd : Decoded.RejectsIff p (.error e)) :
    e = .unallocatedThumb := hd.1

theorem Decoded.RejectsIff.congr {p q : Prop} {d : Decoded} (hd : Decoded.RejectsIff q d) (hpq : p ↔ q) :
    Decoded.RejectsIff p d := by
  rwa [hpq]

/-- The halfwords that are no Thumb instruction: those R153 lists, and BX with a non-zero Rd field (R379). -/
def NoThumb (h : Half) : Prop := unallocatedThumb h = true ∨ bxNonZero h = true

/-- `NoThumb` by its bits, a disjunct for each line of R153 and one for R379. -/
theorem noThumb_iff {h : Half} : NoThumb h ↔
      h.getLsbD 15 = true ∧ h.getLsbD 14 = false ∧ h.getLsbD 13 = true ∧ h.getLsbD 12 = true ∧
        (h.getLsbD 11 = true ∨ h.getLsbD 10 = true ∨ h.getLsbD 9 = true ∨ h.getLsbD 8 = true) ∧
        (h.getLsbD 10 = false ∨ h.getLsbD 9 = true) ∨
      h.getLsbD 15 = true ∧ h.getLsbD 14 = true ∧ h.getLsbD 13 = false ∧ h.getLsbD 12 = true ∧
        h.getLsbD 11 = true ∧ h.getLsbD 10 = true ∧ h.getLsbD 9 = true ∧ h.getLsbD 8 = false ∨
      h.getLsbD 15 = true ∧ h.getLsbD 14 = true ∧ h.getLsbD 13 = true ∧ h.getLsbD 12 = false ∧ h.getLsbD 11 = true ∨
      h.getLsbD 15 = false ∧ h.getLsbD 14 = true ∧ h.getLsbD 13 = false ∧ h.getLsbD 12 = false ∧
        h.getLsbD 11 = false ∧ h.getLsbD 10 = true ∧ (h.getLsbD 9 = false ∨ h.getLsbD 8 = false) ∧ h.getLsbD 7 = false ∧ h.getLsbD 6 = false ∨
      h.getLsbD 15 = false ∧ h.getLsbD 14 = true ∧ h.getLsbD 13 = false ∧ h.getLsbD 12 = false ∧
        h.getLsbD 11 = false ∧ h.getLsbD 10 = true ∧ h.getLsbD 9 = true ∧ h.getLsbD 8 = true ∧ h.getLsbD 7 = true ∨
      h.getLsbD 15 = false ∧ h.getLsbD 14 = true ∧ h.getLsbD 13 = false ∧ h.getLsbD 12 = false ∧
        h.getLsbD 11 = false ∧ h.getLsbD 10 = true ∧ h.getLsbD 9 = true ∧ h.getLsbD 8 = true ∧ h.getLsbD 7 = false ∧ thumbRd h ≠ 0#3 := by
  simp only [NoThumb, unallocatedThumb, bxNonZero, thumbRd, Bool.or_eq_true, Bool.and_eq_true, beq_iff_eq, bne_iff_ne, ne_eq,
    field_eq_const_succ_iff, field_eq_const_zero, Nat.reduceAdd, BitVec.reduceGetLsb, and_true, not_and_or, Bool.not_eq_true,
    Bool.not_eq_false, and_assoc, or_assoc]

theorem decodeShiftAdd_rejectsIff (h : Half) : Decoded.RejectsIff False (decodeShiftAdd h) := by
  unfold decodeShiftAdd
  split
  case h_4 => split <;> exact not_false
  all_goals exact not_false

theorem decodeImmThumb_rejectsIff (h : Half) : Decoded.RejectsIff False (decodeImmThumb h) := by
  unfold decodeImmThumb
  split <;> exact not_false

theorem decodeAluThumb_rejectsIff (h : Half) : Decoded.RejectsIff False (decodeAluThumb h) := by
  unfold decodeAluThumb
  simp only
  split <;> exact not_false

theorem decodeOffThumb_rejectsIff (h : Half) : Decoded.RejectsIff False (decodeOffThumb h) := by
  unfold decodeOffThumb
  split <;> exact not_false

theorem decodeHalfSp_rejectsIff (h : Half) : Decoded.RejectsIff False (decodeHalfSp h) := by
  unfold decodeHalfSp
  split <;> exact not_false

theorem decodeHi_rejectsIff {h : Half} (htop : h.extractLsb' 10 6 = 0b010001#6) :
    Decoded.RejectsIff (NoThumb h) (decodeHi h) := by
  simp only [field_eq_const_succ_iff, field_eq_const_zero, Nat.reduceAdd, BitVec.reduceGetLsb, and_true] at htop
  cases h9 : h.getLsbD 9 <;> cases h8 : h.getLsbD 8 <;> cases h7 : h.getLsbD 7 <;> cases h6 : h.getLsbD 6
  all_goals
    simp [decodeHi, noThumb_iff, -BitVec.getLsbD_eq_getElem, *]

theorem decodeMiscThumb_rejectsIff {h : Half} (htop : h.extractLsb' 12 4 = 0b1011#4) :
    Decoded.RejectsIff (NoThumb h) (decodeMiscThumb h) := by
  simp only [field_eq_const_succ_iff, field_eq_const_zero, Nat.reduceAdd, BitVec.reduceGetLsb, and_true] at htop
  cases h11 : h.getLsbD 11 <;> cases h10 : h.getLsbD 10 <;> cases h9 : h.getLsbD 9 <;> cases h8 : h.getLsbD 8
  all_goals
    simp [decodeMiscThumb, noThumb_iff, -BitVec.getLsbD_eq_getElem, *]

theorem decodeCondThumb_rejectsIff (h : Half) : Decoded.RejectsIff (h.extractLsb' 8 4 = 0b1110#4) (decodeCondThumb h) := by
  unfold decodeCondThumb
  simp only
  split
  case h_16 hne => exact fun h14 => hne (congrArg BitVec.toNat h14)
  all_goals simp [← BitVec.toNat_inj, -BitVec.extractLsb'_toNat, *]

theorem decodeRegThumb_rejectsIff {h : Half} (h15 : h.getLsbD 15 = false) (h14 : h.getLsbD 14 = true)
    (h13 : h.getLsbD 13 = false) : Decoded.RejectsIff (NoThumb h) (decodeRegThumb h) := by
  unfold decodeRegThumb
  split
  case h_1 =>
    exact (decodeAluThumb_rejectsIff h).congr (by simp [noThumb_iff, -BitVec.getLsbD_eq_getElem, *])
  case h_2 => exact decodeHi_rejectsIff (by simp [field_eq_const_succ_iff, -BitVec.getLsbD_eq_getElem, *])
  all_goals simp [noThumb_iff, -BitVec.getLsbD_eq_getElem, *]

theorem decodeThumb_rejectsIff (h : Half) : Decoded.RejectsIff (NoThumb h) (decodeThumb h) := by
  unfold decodeThumb
  split
  case h_1 =>
    exact (decodeShiftAdd_rejectsIff h).congr (by simp [noThumb_iff, -BitVec.getLsbD_eq_getElem, *])
  case h_2 =>
    exact (decodeImmThumb_rejectsIff h).congr (by simp [noThumb_iff, -BitVec.getLsbD_eq_getElem, *])
  case h_3 h15 h14 h13 => exact decodeRegThumb_rejectsIff h15 h14 h13
  case h_4 =>
    exact (decodeOffThumb_rejectsIff h).congr (by simp [noThumb_iff, -BitVec.getLsbD_eq_getElem, *])
  case h_5 =>
    exact (decodeHalfSp_rejectsIff h).congr (by simp [noThumb_iff, -BitVec.getLsbD_eq_getElem, *])
  case h_6 =>
    split
    case h_3 => exact decodeMiscThumb_rejectsIff (by simp [field_eq_const_succ_iff, -BitVec.getLsbD_eq_getElem, *])
    all_goals simp [noThumb_iff, -BitVec.getLsbD_eq_getElem, *]
  case h_7 =>
    split
    case h_3 =>
      exact (decodeCondThumb_rejectsIff h).congr (by simp [noThumb_iff, field_eq_const_succ_iff, -BitVec.getLsbD_eq_getElem, *])
    all_goals simp [noThumb_iff, -BitVec.getLsbD_eq_getElem, *]
  case h_8 => split <;> simp [noThumb_iff, -BitVec.getLsbD_eq_getElem, *]

theorem coprocOf_of_isThumb {i : Instr} (hi : isThumb i = true) : coprocOf i = none := by
  unfold coprocOf
  split
  case h_6 => rfl
  all_goals cases hi

/-- Settles O5: class by class, the decoder rejects exactly the halfwords of R153 and R379; what it accepts is Thumb. -/
theorem thumbUnallocated : Obligations.ThumbUnallocated := by
  intro h
  have hr := decodeThumb_rejectsIff h
  have ht := decodeThumb_thumb h
  refine ⟨hr.eq_error_iff, fun e he => ?_, fun i hi => ?_⟩
  · exact Decoded.RejectsIff.error_eq (he ▸ hr)
  · have hi : isThumb i = true := by simpa [hi] using ht
    exact ⟨hi, coprocOf_of_isThumb hi⟩

/-! ## ARM words with condition field 1111 -/

theorem decodeArm_reserved {w : Word} (h : w.extractLsb' 28 4 = 0b1111#4) : decodeArm w = .error .reservedCondition := by
  rw [decodeArm, h]
  rfl

/-- Settles O4: the decoder looks at the condition field before anything else, and the dispatch stops with what it answers. -/
theorem reservedCondition : Obligations.ReservedCondition := by
  intro w hw
  refine ⟨decodeArm_reserved hw, fun hazard s ht => ?_⟩
  simp only [dispatch, decodeFetched, ht, Bool.false_eq_true, if_false, decodeArm_reserved hw, refusalOf]

/-! ## Words written out, and the condition table -/

/-- Settles O3: the decoder run on each of the seven words. -/
theorem decodeWords : Obligations.DecodeWords :=
  ⟨rfl, rfl, rfl, rfl, rfl, rfl, rfl⟩

/-- Settles O6: the field of each condition, and its row of the table. -/
theorem conditionTable : Obligations.ConditionTable := by
  intro p
  refine ⟨⟨rfl, ?_⟩, ⟨rfl, ?_⟩, ⟨rfl, ?_⟩, ⟨rfl, ?_⟩, ⟨rfl, ?_⟩, ⟨rfl, ?_⟩, ⟨rfl, ?_⟩, ⟨rfl, ?_⟩, ⟨rfl, ?_⟩, ⟨rfl, ?_⟩,
    ⟨rfl, ?_⟩, ⟨rfl, ?_⟩, ⟨rfl, ?_⟩, ⟨rfl, ?_⟩, ⟨rfl, rfl⟩, rfl⟩
  all_goals simp [condPassed]

end Sys2Proof
end

section
/-! ARM B, BL and BX, and the Thumb BX (40_arm_branch, 47_thumb_alu R379): each instruction that executes is one branch. -/

namespace Sys2Proof.Machine

open Sys2Proof.Claims

/-! ## B and BL -/

theorem branchTo_eq_goTo (a : Word) (s : State) : branchTo a s = goTo a s := rfl

/-- A 24-bit offset counts words (R191). -/
theorem branchOffset_words (off : BitVec 24) : branchOffset off 2 = BitVec.ofInt 32 (4 * off.toInt) :=
  branchOffset_eq off 2

theorem exec_b {c : Cond} {s : State} (hc : condPassed c s.cpsr = true) (off : BitVec 24) :
    exec (.b c off) s = .next (branchTo (s.pc + 8 + branchOffset off 2) s) :=
  conditional_pass hc rfl

theorem exec_bl {c : Cond} {s : State} (hc : condPassed c s.cpsr = true) (off : BitVec 24) :
    exec (.bl c off) s = .next (branchTo (s.pc + 8 + branchOffset off 2) (writeReg s 14 (s.pc + 4))) :=
  conditional_pass hc rfl

/-- Settles O35: the branch behind the condition, with its offset as a signed number of words. -/
theorem armBranch : Obligations.ArmBranch := by
  intro c off s _ hc
  constructor
  · rw [exec_b hc, branchOffset_words, branchTo_eq_goTo]
  · rw [exec_bl hc, branchOffset_words, branchTo_eq_goTo]

/-! ## BX -/

/-- A BX that executes, in either state, is the exchange to its register's value. -/
theorem exec_bx {i : Instr} {s : State} {a : Word} (hi : bxOf s i = some a) (he : executes i s = true) :
    exec i s = branchExchange a s := by
  obtain ⟨-, hc, hb⟩ := (executes_iff i s).mp he
  cases i <;> cases hi
  case bx c rn => exact conditional_pass hc hb
  case tBx rs => rfl

theorem branchExchange_to_thumb {a : Word} (h : a.getLsbD 0 = true) (s : State) :
    branchExchange a s = .next (branchTo (halfMask a) { s with cpsr := { s.cpsr with t := true } }) :=
  if_pos h

theorem branchExchange_to_arm {a : Word} (h : a.getLsbD 0 = false) (hw : wordAligned a = true) (s : State) :
    branchExchange a s = .next (branchTo a { s with cpsr := { s.cpsr with t := false } }) := by
  simp only [branchExchange, h, hw, Bool.false_eq_true, if_false, if_true]

theorem branchExchange_unaligned {a : Word} (h : a.getLsbD 0 = false) (hw : wordAligned a = false) (s : State) :
    branchExchange a s = .refused .unalignedTarget := by
  simp only [branchExchange, h, hw, Bool.false_eq_true, if_false]

/-- The low bit of an address is that of its bits [1:0]. -/
theorem getLsbD_zero_of_low_bits {a : Word} {b : BitVec 2} (h : a.extractLsb' 0 2 = b) : a.getLsbD 0 = b.getLsbD 0 := by
  rw [← h, BitVec.getLsbD_extractLsb']
  rfl

theorem wordAligned_of_low_bits {a : Word} {b : BitVec 2} (h : a.extractLsb' 0 2 = b) : wordAligned a = (b == 0#2) := by
  rw [wordAligned, h]

/-- Settles O36: the exchange at each value of bits [1:0]; 01 and 11 both have bit 0 set. (`branchExchange` names the machine's own
operation, so the theorem cannot.) -/
theorem branchExchange_completes : Obligations.BranchExchange := by
  intro i s a hi he
  rw [exec_bx hi he]
  refine ⟨fun h => ?thumb, fun h => ?arm, fun h => ?unaligned⟩
  case thumb => exact branchExchange_to_thumb h s
  case arm => exact branchExchange_to_arm (getLsbD_zero_of_low_bits h) (wordAligned_of_low_bits h) s
  case unaligned => exact branchExchange_unaligned (getLsbD_zero_of_low_bits h) (wordAligned_of_low_bits h) s

end Sys2Proof.Machine
end

section
/-! The second operand, bit by bit: the rotated immediate and the shifts by an immediate and by a register
(41_arm_data_processing R202 to R204). -/

namespace Sys2Proof.Machine

open Sys2Proof.Claims

/-! ## The rotated immediate -/

/-- Settles O10: a rotation by 2 * rotate < 32 (`getLsbD_ror`) of the immediate widened, and the two cases of its carry-out. -/
theorem immediateOperand : Obligations.ImmediateOperand := by
  intro o c
  refine ⟨fun i hi => ?bits, fun h => if_pos h, fun h => if_neg h⟩
  case bits =>
    have hr : 2 * o.rotate.toNat < 32 := by have := o.rotate.isLt; omega
    have hk : (i + 2 * o.rotate.toNat) % 32 < 32 := Nat.mod_lt _ (by omega)
    simp only [immOperand, rotValue, getLsbD_ror _ hr hi, BitVec.getLsbD_setWidth, hk, decide_true, Bool.true_and]

/-! ## Each shift, bit by bit -/

/-- LSL by `n` places. -/
theorem lslSmall_bits (m : Word) {n : Nat} (c : Bool) (hn : n ≠ 0) :
    (∀ i, i < 32 → (lslSmall m n c).value.getLsbD i = (decide (n ≤ i) && m.getLsbD (i - n))) ∧
      (lslSmall m n c).carry = m.getLsbD (32 - n) := by
  rw [lslSmall, if_neg hn]
  refine ⟨fun i hi => ?_, rfl⟩
  simp only [BitVec.getLsbD_shiftLeft, hi, decide_true, Bool.true_and, ← decide_not, Nat.not_lt]

/-- LSR by `n` places. -/
theorem lsrSmall_bits (m : Word) (n : Nat) :
    (∀ i, i < 32 → (lsrSmall m n).value.getLsbD i = m.getLsbD (i + n)) ∧ (lsrSmall m n).carry = m.getLsbD (n - 1) := by
  refine ⟨fun i _ => ?_, rfl⟩
  rw [lsrSmall, BitVec.getLsbD_ushiftRight, Nat.add_comm]

/-- ASR by `n` places: what comes in is bit 31. -/
theorem asrSmall_bits (m : Word) (n : Nat) :
    (∀ i, i < 32 → (asrSmall m n).value.getLsbD i = m.getLsbD (min (i + n) 31)) ∧ (asrSmall m n).carry = m.getLsbD (n - 1) := by
  refine ⟨fun i hi => ?_, rfl⟩
  have hin : (!decide (32 ≤ i)) = true := by simpa using hi
  rw [asrSmall, BitVec.getLsbD_sshiftRight, BitVec.msb_eq_getLsbD_last, Nat.add_comm n i, hin, Bool.true_and]
  by_cases h : i + n < 32
  · rw [if_pos h, Nat.min_eq_left (by omega)]
  · rw [if_neg h, Nat.min_eq_right (by omega)]

/-- ROR by 1 to 31 places. -/
theorem rorSmall_bits (m : Word) {n : Nat} (hn : n < 32) :
    (∀ i, i < 32 → (rorSmall m n).value.getLsbD i = m.getLsbD ((i + n) % 32)) ∧ (rorSmall m n).carry = m.getLsbD (n - 1) :=
  ⟨fun _ hi => getLsbD_ror m hn hi, rfl⟩

/-- ASR by 32 or more: every bit is bit 31. -/
theorem signFill_bits (m : Word) :
    (∀ i, i < 32 → (signFill m).value.getLsbD i = m.getLsbD 31) ∧ (signFill m).carry = m.getLsbD 31 := by
  refine ⟨fun i hi => ?_, rfl⟩
  unfold signFill
  cases m.getLsbD 31 with
  | false => exact BitVec.getLsbD_zero
  | true =>
    have hones : (0xFFFFFFFF : Word) = BitVec.allOnes 32 := rfl
    simp only [if_true, hones, BitVec.getLsbD_allOnes, hi, decide_true]

/-- RRX: one place to the right, C coming in. -/
theorem rrx_bits (m : Word) (c : Bool) :
    (∀ i, i < 31 → (rrx m c).value.getLsbD i = m.getLsbD (i + 1)) ∧ (rrx m c).value.getLsbD 31 = c ∧
      (rrx m c).carry = m.getLsbD 0 := by
  refine ⟨fun i hi => ?_, ?_, rfl⟩
  · simp only [rrx, BitVec.getLsbD_append, hi, if_true, BitVec.getLsbD_extractLsb', decide_true, Bool.true_and, Nat.add_comm]
  · simp only [rrx, BitVec.getLsbD_append, Nat.lt_irrefl, if_false, Nat.sub_self, BitVec.getLsbD_ofBool]
    simp

/-! ## Which shift an amount is -/

theorem shiftImm_lsr {n : BitVec 5} (h : n ≠ 0) (m : Word) (c : Bool) : shiftImm .lsr m n c = lsrSmall m n.toNat :=
  if_neg (BitVec.toNat_ne.mp h)

theorem shiftImm_asr {n : BitVec 5} (h : n ≠ 0) (m : Word) (c : Bool) : shiftImm .asr m n c = asrSmall m n.toNat :=
  if_neg (BitVec.toNat_ne.mp h)

theorem shiftImm_ror {n : BitVec 5} (h : n ≠ 0) (m : Word) (c : Bool) : shiftImm .ror m n c = rorSmall m n.toNat :=
  if_neg (BitVec.toNat_ne.mp h)

/-- Settles O11: at amount 0 the form the table gives instead (`signFill`, `rrx`), at any other the shift by that amount. -/
theorem shiftByImmediate : Obligations.ShiftByImmediate := by
  intro m n c
  refine ⟨?lsl0, fun h => ?lsl, ?lsr0, fun h => ?lsr, ?asr0, fun h => ?asr, ?rrx, fun h => ?ror⟩
  case lsl0 => rintro rfl; rfl
  case lsl => exact lslSmall_bits m c (BitVec.toNat_ne.mp h)
  case lsr0 => rintro rfl; rfl
  case lsr => rw [shiftImm_lsr h]; exact lsrSmall_bits m _
  case asr0 => rintro rfl; exact signFill_bits m
  case asr => rw [shiftImm_asr h]; exact asrSmall_bits m _
  case rrx => rintro rfl; exact rrx_bits m c
  case ror => rw [shiftImm_ror h]; exact rorSmall_bits m n.isLt

section ByRegister

variable {n : Byte} (h : n.toNat ≠ 0) (m : Word) (c : Bool)
include h

theorem shiftReg_lsl : shiftReg .lsl m n c =
    if n.toNat < 32 then lslSmall m n.toNat c else { value := 0, carry := n.toNat == 32 && m.getLsbD 0 } :=
  if_neg h

theorem shiftReg_lsr : shiftReg .lsr m n c =
    if n.toNat < 32 then lsrSmall m n.toNat else { value := 0, carry := n.toNat == 32 && m.getLsbD 31 } :=
  if_neg h

theorem shiftReg_asr : shiftReg .asr m n c = if n.toNat < 32 then asrSmall m n.toNat else signFill m :=
  if_neg h

theorem shiftReg_ror : shiftReg .ror m n c =
    if n.toNat % 32 = 0 then { value := m, carry := m.getLsbD 31 } else rorSmall m (n.toNat % 32) :=
  if_neg h

end ByRegister

/-! ## R15 in the form with the amount in a register -/

theorem condOf_dpInstr (op : AluOp) (c : Cond) (sf : Bool) (rn rd : Reg) (o : Op2) : condOf (dpInstr op c sf rn rd o) = c := by
  cases op <;> cases o <;> rfl

theorem pcRule_of_mem {l : List Reg} (h : (15 : Reg) ∈ l) : pcRule l = some .usesPc := by
  have hpc : hasPc l = true := by simpa [hasPc] using h
  exact if_pos hpc

/-- The register fields of the form whose shift amount is in a register: MOV and MVN have no Rn, a compare no Rd. -/
def shRegFields (op : AluOp) (rn rd : Reg) (o : ShReg) : List Reg :=
  (if op = .mov ∨ op = .mvn then [] else [rn]) ++ (if compares op then [] else [rd]) ++ [o.rs, o.rm]

theorem broken_dpInstr_shReg (op : AluOp) (c : Cond) (sf : Bool) (rn rd : Reg) (o : ShReg) :
    (dpInstr op c sf rn rd (.shReg o)).broken = pcRule (shRegFields op rn rd o) := by
  cases op <;> rfl

theorem mem_shRegFields {op : AluOp} {rn rd r : Reg} {o : ShReg} :
    r ∈ shRegFields op rn rd o ↔ (rn = r ∧ op ≠ .mov ∧ op ≠ .mvn) ∨ (rd = r ∧ compares op = false) ∨ o.rs = r ∨ o.rm = r := by
  simp only [shRegFields, List.mem_append, List.mem_ite_nil_left, List.mem_cons, List.not_mem_nil, or_false, Bool.not_eq_true,
    not_or, eq_comm (a := r)]
  tauto

/-- R15 in a field of that form is refused where the condition passes (R206). -/
theorem exec_shReg_usesPc {op : AluOp} {c : Cond} {rn rd : Reg} {o : ShReg} {s : State} (sf : Bool)
    (hc : condPassed c s.cpsr = true) (h : (15 : Reg) ∈ shRegFields op rn rd o) :
    exec (dpInstr op c sf rn rd (.shReg o)) s = .refused (.operands .usesPc) :=
  exec_broken ((broken_dpInstr_shReg op c sf rn rd o).trans (pcRule_of_mem h)) (by rw [condOf_dpInstr]; exact hc)

/-- Settles O12: each row of the table is a branch of the shift of its type; the amount is a byte; R15 as the amount is one of the
fields R206 refuses. -/
theorem shiftByRegister : Obligations.ShiftByRegister := by
  refine ⟨fun m n c => ?rows, fun s o => ?byte, fun op c sf rn rd o s h hc => ?pc⟩
  case byte =>
    have hb : BitVec.ofNat 8 ((readReg s o.rs).toNat % 256) = (readReg s o.rs).setWidth 8 :=
      BitVec.eq_of_toNat_eq (by simp)
    rw [hb, shRegForm]
  case pc => exact exec_shReg_usesPc sf hc (mem_shRegFields.mpr (by tauto))
  case rows =>
    refine ⟨fun type => ?zero, fun h1 h31 => ?lsl, fun h => ?lsl32, fun h => ?lslAbove, fun h1 h31 => ?lsr, fun h => ?lsr32,
      fun h => ?lsrAbove, fun h1 h31 => ?asr, fun h => ?asrAbove, fun h0 h => ?ror32, fun h => ?ror⟩
    case zero => rintro rfl; rfl
    case lsl =>
      rw [shiftReg_lsl (by omega), if_pos (by omega)]
      exact lslSmall_bits m c (by omega)
    case lsl32 => rw [shiftReg_lsl (by omega), if_neg (by omega), h]; rfl
    case lslAbove => rw [shiftReg_lsl (by omega), if_neg (by omega), beq_false_of_ne (by omega), Bool.false_and]
    case lsr =>
      rw [shiftReg_lsr (by omega), if_pos (by omega)]
      exact lsrSmall_bits m _
    case lsr32 => rw [shiftReg_lsr (by omega), if_neg (by omega), h]; rfl
    case lsrAbove => rw [shiftReg_lsr (by omega), if_neg (by omega), beq_false_of_ne (by omega), Bool.false_and]
    case asr =>
      rw [shiftReg_asr (by omega), if_pos (by omega)]
      exact asrSmall_bits m _
    case asrAbove =>
      rw [shiftReg_asr (by omega), if_neg (by omega)]
      exact signFill_bits m
    case ror32 => rw [shiftReg_ror (BitVec.toNat_ne.mp h0), if_pos h]
    case ror =>
      have h0 : n.toNat ≠ 0 := fun h0 => h (by rw [h0])
      rw [shiftReg_ror h0, if_neg h]
      obtain ⟨hbits, hcarry⟩ := rorSmall_bits m (Nat.mod_lt n.toNat (by omega : 0 < 32))
      exact ⟨fun i hi => by rw [hbits i hi, Nat.add_mod_mod], hcarry⟩

/-! ## R15 as an operand -/

theorem pcRead_arm {s : State} (ht : s.cpsr.t = false) : pcRead s = s.pc + 8 := by
  simp only [pcRead, ht, Bool.false_eq_true, if_false]

/-- Settles O13: R15 reads as `pcRead`, which keeps the alignment of the pc; the refused fields are `shRegFields`. -/
theorem pcAsOperand : Obligations.PcAsOperand := by
  refine ⟨fun s ht => ?reads, fun op c sf rn rd o s hc h => exec_shReg_usesPc sf hc (mem_shRegFields.mpr (by tauto))⟩
  case reads =>
    have hpc : readReg s 15 = s.pc + 8 := (readReg_pc s).trans (pcRead_arm ht)
    refine ⟨hpc, fun hal => ?_, fun o ho => by rw [shImmForm, ho, hpc]⟩
    have h4 : s.pc.toNat % 4 = 0 := (pcAligned_arm ht).mp hal
    have hw : wordAligned (readReg s 15) = true := by
      rw [wordAligned_iff, hpc]
      bv_omega
    simpa [wordAligned] using hw

end Sys2Proof.Machine
end

section
/-! The conditions after CMP, and data processing with Rd = R15: a branch, or the exception return (41_arm_data_processing R207,
R218). -/

namespace Sys2Proof.Machine

open Sys2Proof.Claims

/-! ## CMP -/

/-- The sign of a difference is that of the exact one, but where it overflows. -/
theorem sub_sign_eq_overflow_iff (a b : Word) :
    decide ((a - b).toInt < 0) = overflows (a.toInt - b.toInt) ↔ b.toInt ≤ a.toInt := by
  have := a.toInt_lt
  have := a.le_toInt
  have := b.toInt_lt
  have := b.le_toInt
  rw [overflows, ← Bool.decide_or, decide_eq_decide, BitVec.toInt_sub, Int.bmod_def]
  omega

/-- Settles O9: Z, C and N = V after CMP say equal, unsigned at least and signed at least; the conditions combine them. -/
theorem compareRelations : Obligations.CompareRelations := by
  intro a o p
  rw [flagsOf_alu]
  have hz : (dpFlags .cmp a o p).z = true ↔ a = o.value := decide_eq_true_iff.trans sub_eq_zero
  have hc : (dpFlags .cmp a o p).c = true ↔ o.value.toNat ≤ a.toNat := decide_eq_true_iff
  have hnv : (dpFlags .cmp a o p).n = (dpFlags .cmp a o p).v ↔ o.value.toInt ≤ a.toInt := sub_sign_eq_overflow_iff a o.value
  have hnat : a = o.value ↔ a.toNat = o.value.toNat := BitVec.toNat_inj.symm
  have hint : a = o.value ↔ a.toInt = o.value.toInt := BitVec.toInt_inj.symm
  refine ⟨hz, hc, ?hi, beq_iff_eq.trans hnv, ?gt, bne_iff_ne.trans (hnv.not.trans Int.not_le), ?le⟩
  case hi =>
    simp only [condPassed, Bool.and_eq_true, Bool.not_eq_true', ← Bool.not_eq_true, hc, hz, hnat]
    omega
  case gt =>
    simp only [condPassed, Bool.and_eq_true, Bool.not_eq_true', ← Bool.not_eq_true, beq_iff_eq, hnv, hz, hint]
    omega
  case le =>
    simp only [condPassed, Bool.or_eq_true, bne_iff_ne, ne_eq, hnv, hz, hint]
    omega

/-! ## Rd = R15 -/

theorem dataProcess_to_pc (op : AluOp) (a : Word) (o : Shifted) (s : State) :
    dataProcess op false a 15 o s = branchAligned (dpResult op a o.value s.cpsr.c) s := by
  rw [← alu_result]; rfl

theorem dataProcess_return (op : AluOp) (a : Word) (o : Shifted) (s : State) :
    dataProcess op true a 15 o s = exceptionReturn false (dpResult op a o.value s.cpsr.c) s := by
  rw [← alu_result]; rfl

theorem branchAligned_to_aligned {a : Word} (h : a.extractLsb' 0 2 = 0#2) (s : State) : branchAligned a s = .next (goTo a s) :=
  if_pos (wordAligned_of_low_bits h)

theorem branchAligned_to_unaligned {a : Word} (h : a.extractLsb' 0 2 ≠ 0#2) (s : State) :
    branchAligned a s = .refused .unalignedTarget :=
  if_neg fun hw => h (beq_iff_eq.mp hw)

/-- Settles O17: the operation is the branch to its result. -/
theorem dataProcessingToPc : Obligations.DataProcessingToPc := by
  intro op c rn o s hop he
  rw [exec_dataProcess he hop, dataProcess_to_pc]
  exact ⟨fun h => branchAligned_to_aligned h s, fun h => branchAligned_to_unaligned h s⟩

/-! ## The exception return -/

/-- The return behind an SPSR that can be restored. -/
theorem exceptionReturn_restore {s : State} {p : Psr} (h : s.spsrs.get s.cpsr.mode = some p.toWord) (a : Word) :
    exceptionReturn false a s =
      if p.t then .next (branchTo (halfMask a) { s with cpsr := p }) else branchAligned a { s with cpsr := p } := by
  simp only [exceptionReturn, h, Psr.ofWord_toWord, Bool.false_eq_true, if_false]

theorem exceptionReturn_noSpsr {s : State} (h : s.cpsr.mode = .usr ∨ s.cpsr.mode = .sys) (m : Bool) (a : Word) :
    exceptionReturn m a s = .refused .noSpsr := by
  simp only [exceptionReturn, (Spsrs.get_eq_none s.spsrs s.cpsr.mode).mpr h]

theorem ofBits_eq_none_of_not_legalMode : ∀ {b : BitVec 5}, legalMode b = false → Mode.ofBits b = none := by
  decide

theorem exceptionReturn_illegalMode {s : State} (h : badReturn s = true) (m : Bool) (a : Word) :
    exceptionReturn m a s = .refused .illegalMode := by
  unfold badReturn at h
  split at h
  case h_1 w hw =>
    have hmode : Mode.ofBits (w.extractLsb' 0 5) = none := ofBits_eq_none_of_not_legalMode (by simpa using h)
    simp only [exceptionReturn, hw, Psr.ofWord, hmode]
  case h_2 => cases h

/-- Settles O18: the operation is the exception return to its result, by what the SPSR of the mode is. -/
theorem dataProcessingReturn : Obligations.DataProcessingReturn := by
  intro op c rn o s hop he
  rw [exec_dataProcess he hop, dataProcess_return]
  refine ⟨fun p hp => ?restored, fun h => exceptionReturn_noSpsr h _ _, fun h => exceptionReturn_illegalMode h _ _⟩
  case restored =>
    rw [exceptionReturn_restore hp]
    refine ⟨fun ht => if_pos ht, fun ht h => ?arm, fun ht h => ?unaligned⟩
    case arm => rw [ht]; exact branchAligned_to_aligned h _
    case unaligned => rw [ht]; exact branchAligned_to_unaligned h _

end Sys2Proof.Machine
end

section
/-! MRS and MSR: which bits move, and what is refused (42_arm_psr_transfer R241 to R245). -/

namespace Sys2Proof.Machine

open Sys2Proof.Claims

/-! ## MRS -/

theorem pcRule_of_not_mem {l : List Reg} (h : (15 : Reg) ∉ l) : pcRule l = none := by
  have hpc : ¬hasPc l = true := by simpa [hasPc] using h
  exact if_neg hpc

theorem exec_mrs {c : Cond} {rd : Reg} {s : State} (hc : condPassed c s.cpsr = true) (hrd : rd ≠ 15) (spsr : Bool) :
    exec (.mrs c spsr rd) s = readPsr spsr rd s :=
  conditional_pass hc (pcRule_of_not_mem fun h => hrd (List.mem_singleton.mp h).symm)

theorem exec_mrs_pc {c : Cond} {s : State} (hc : condPassed c s.cpsr = true) (spsr : Bool) :
    exec (.mrs c spsr 15) s = .refused (.operands .usesPc) :=
  conditional_broken hc (pcRule_of_mem (List.mem_singleton_self _))

theorem readPsr_cpsr (rd : Reg) (s : State) : readPsr false rd s = advance (writeReg s rd s.cpsr.toWord) := rfl

theorem readPsr_spsr {s : State} {w : Word} (h : s.spsrs.get s.cpsr.mode = some w) (rd : Reg) :
    readPsr true rd s = advance (writeReg s rd w) := by
  simp only [readPsr, h, if_true]

theorem readPsr_noSpsr {s : State} (h : s.cpsr.mode = .usr ∨ s.cpsr.mode = .sys) (rd : Reg) :
    readPsr true rd s = .refused .noSpsr := by
  simp only [readPsr, (Spsrs.get_eq_none s.spsrs s.cpsr.mode).mpr h, if_true]

theorem advance_writeReg {s : State} (hroom : room s = true) (r : Reg) (v : Word) :
    advance (writeReg s r v) = .next (past s (writeReg s r v)) :=
  advance_past (writeReg_pc s r v) (congrArg Psr.t (writeReg_cpsr s r v)) hroom

/-- Settles O20: MRS advances from the state with Rd written, unless the mode has no SPSR or Rd is R15. -/
theorem mrsCopiesPsr : Obligations.MrsCopiesPsr := by
  intro c rd s _ hc
  refine ⟨fun hrd hroom => ⟨?cpsr, fun w hw => ?spsr⟩, fun hrd hmode => ?noSpsr, fun hrd spsr => ?pc⟩
  case cpsr => rw [exec_mrs hc hrd, readPsr_cpsr, advance_writeReg hroom]
  case spsr => rw [exec_mrs hc hrd, readPsr_spsr hw, advance_writeReg hroom]
  case noSpsr => rw [exec_mrs hc hrd, readPsr_noSpsr hmode]
  case pc => rw [hrd, exec_mrs_pc hc]

/-! ## MSR -/

/-- A word with the new bits in the bytes of the mask and the old ones elsewhere is the merge. -/
theorem mergeBytes_eq {mask : BitVec 4} {old new w : Word}
    (h : ∀ k, k < 32 → w.getLsbD k = if mask.getLsbD (k / 8) = true then new.getLsbD k else old.getLsbD k) :
    mergeBytes mask old new = w :=
  BitVec.eq_of_getLsbD_eq fun k hk => (getLsbD_mergeBytes mask old new hk).trans (h k hk).symm

/-- In User mode only the flags byte counts (R244). -/
theorem getLsbD_msrMask (m : Mode) (mask : BitVec 4) {k : Nat} (hk : k < 32) :
    (msrMask m mask).getLsbD (k / 8) = true ↔ mask.getLsbD (k / 8) = true ∧ (m ≠ .usr ∨ 24 ≤ k) := by
  by_cases hm : m = .usr
  case neg => simp [msrMask, Mode.privileged, hm]
  case pos =>
    subst hm
    by_cases hb : 24 ≤ k
    case neg => simp [msrMask_user mask (show k / 8 < 3 by omega), hb]
    case pos =>
      have h3 : k / 8 = 3 := by omega
      rw [h3, msrMask_flags]
      simp only [hb, or_true, and_true]

theorem writeCpsr_psr {s : State} {mask : BitVec 4} {v : Word} {p : Psr} (ht : p.t = s.cpsr.t)
    (h : mergeBytes (msrMask s.cpsr.mode mask) s.cpsr.toWord v = p.toWord) :
    writeCpsr mask v s = advance { s with cpsr := p } := by
  simp only [writeCpsr, h, Psr.toWord_t, ht, bne_self_eq_false, Bool.false_eq_true, if_false, Psr.ofWord_toWord]

section LowByte

variable {s : State} {mask : BitVec 4} (v : Word) (hmode : s.cpsr.mode ≠ .usr) (hmask : mask.getLsbD 0 = true)
include hmode hmask

/-- In a privileged mode an MSR that names the low byte writes the operand's T and mode. -/
theorem control_of_msr_low :
    (mergeBytes (msrMask s.cpsr.mode mask) s.cpsr.toWord v).getLsbD 5 = v.getLsbD 5 ∧
      (mergeBytes (msrMask s.cpsr.mode mask) s.cpsr.toWord v).extractLsb' 0 5 = v.extractLsb' 0 5 := by
  have hlow : (msrMask s.cpsr.mode mask).getLsbD 0 = true := by simp [msrMask_bit_zero, hmode, hmask]
  exact ⟨by rw [getLsbD_mergeBytes _ _ _ (by decide)]; exact if_pos hlow,
    by rw [extractLsb'_mode_mergeBytes, if_pos hlow]⟩

theorem writeCpsr_changesT (ht : v.getLsbD 5 ≠ s.cpsr.t) : writeCpsr mask v s = .refused .changesT := by
  obtain ⟨hT, -⟩ := control_of_msr_low v hmode hmask
  exact if_pos (by rw [hT]; exact bne_iff_ne.mpr ht)

theorem writeCpsr_illegalMode (ht : v.getLsbD 5 = s.cpsr.t) (hm : Mode.ofBits (v.extractLsb' 0 5) = none) :
    writeCpsr mask v s = .refused .illegalMode := by
  obtain ⟨hT, hM⟩ := control_of_msr_low v hmode hmask
  simp only [writeCpsr, hT, ht, bne_self_eq_false, Bool.false_eq_true, if_false, Psr.ofWord, hM, hm]

end LowByte

/-- Settles O21: the CPSR the statement gives bit by bit is the merge; the low byte of the merge is the operand's where it is refused. -/
theorem msrCpsr : Obligations.MsrCpsr := by
  intro i s mask v hi he
  have hexec : exec i s = writeCpsr mask v s := exec_msr hi he
  rw [hexec]
  refine ⟨fun p hroom ht hbits => ?written, fun hmode hmask ht => writeCpsr_changesT v hmode hmask ht,
    fun hmode hmask ht hm => writeCpsr_illegalMode v hmode hmask ht hm⟩
  case written =>
    have hmerge : mergeBytes (msrMask s.cpsr.mode mask) s.cpsr.toWord v = p.toWord :=
      mergeBytes_eq fun k hk => by simp only [hbits k hk, getLsbD_msrMask _ _ hk]
    rw [writeCpsr_psr ht hmerge]
    exact advance_past rfl ht hroom

theorem writeSpsr_word {s : State} {w : Word} (h : s.spsrs.get s.cpsr.mode = some w) (mask : BitVec 4) (v : Word) :
    writeSpsr mask v s = advance { s with spsrs := s.spsrs.set s.cpsr.mode (mergeBytes mask w v) } := by
  simp only [writeSpsr, h]

theorem writeSpsr_noSpsr {s : State} (h : s.cpsr.mode = .usr ∨ s.cpsr.mode = .sys) (mask : BitVec 4) (v : Word) :
    writeSpsr mask v s = .refused .noSpsr := by
  simp only [writeSpsr, (Spsrs.get_eq_none s.spsrs s.cpsr.mode).mpr h]

/-- Settles O22: the SPSR the statement gives bit by bit is the merge; User and System mode have no SPSR. -/
theorem msrSpsr : Obligations.MsrSpsr := by
  intro i s mask v hi he
  have hexec : exec i s = writeSpsr mask v s := exec_msr hi he
  rw [hexec]
  refine ⟨fun w w' hw hroom hbits => ?written, fun hmode => writeSpsr_noSpsr hmode mask v⟩
  case written =>
    rw [writeSpsr_word hw, mergeBytes_eq hbits]
    exact advance_past rfl rfl hroom

end Sys2Proof.Machine
end

section
/-! The multiplies (43_arm_multiply R251 to R260, 47_thumb_alu R365): the products read as exact integers, and each instruction as
one write of its result. -/

namespace Sys2Proof.Machine

open Sys2Proof.Claims

/-! ## The products -/

theorem toNat_umulProduct (a b : Word) : (umulProduct a b).toNat = a.toNat * b.toNat := by
  have hlt : a.toNat * b.toNat < 2 ^ 64 := BitVec.toNat_mul_toNat_lt
  rw [umulProduct, BitVec.toNat_ofNat, Nat.mod_eq_of_lt hlt]

theorem toInt_smulProduct (a b : Word) : (smulProduct a b).toInt = a.toInt * b.toInt := by
  have hle : a.toInt * b.toInt ≤ 2 ^ 62 := BitVec.toInt_mul_toInt_le
  have hge : -2 ^ 62 ≤ a.toInt * b.toInt := BitVec.le_toInt_mul_toInt
  exact BitVec.toInt_ofInt_eq_self (by decide) (by omega) (by omega)

/-- N of SMULL is the sign of the exact product (R260). -/
theorem smulProduct_sign (a b : Word) : (smulProduct a b).getLsbD 63 = decide (a.toInt * b.toInt < 0) := by
  rw [← toInt_smulProduct, ← BitVec.msb_eq_toInt, BitVec.msb_eq_getLsbD_last]

/-- The low word of a product of words is the product of words, whichever way they are read. -/
theorem mul_eq_ofNat (a b : Word) : a * b = BitVec.ofNat 32 (a.toNat * b.toNat) := by
  simp only [BitVec.ofNat_mul, BitVec.ofNat_toNat, BitVec.setWidth_eq]

theorem mul_eq_ofInt (a b : Word) : a * b = BitVec.ofInt 32 (a.toInt * b.toInt) := by
  simp only [BitVec.ofInt_mul, BitVec.ofInt_toInt]

theorem lowWord_ofInt (z : Int) : (BitVec.ofInt 64 z).extractLsb' 0 32 = BitVec.ofInt 32 z := by
  refine BitVec.eq_of_toNat_eq ?_
  simp only [BitVec.extractLsb'_toNat, BitVec.toNat_ofInt, Nat.shiftRight_zero]
  omega

theorem lowWord_ofNat (n : Nat) : (BitVec.ofNat 64 n).extractLsb' 0 32 = BitVec.ofNat 32 n := by
  rw [← BitVec.ofInt_natCast, lowWord_ofInt, BitVec.ofInt_natCast]

theorem lowWord_umulProduct (a b : Word) : (umulProduct a b).extractLsb' 0 32 = a * b :=
  (lowWord_ofNat _).trans (mul_eq_ofNat a b).symm

theorem lowWord_smulProduct (a b : Word) : (smulProduct a b).extractLsb' 0 32 = a * b :=
  (lowWord_ofInt _).trans (mul_eq_ofInt a b).symm

/-- Settles O25: 64 bits hold each exact product, and the low word of either is the product of words. -/
theorem multiplyLaws : Obligations.MultiplyLaws := by
  refine fun a b => ⟨(mul_eq_ofNat a b).symm.trans (mul_eq_ofInt a b), toNat_umulProduct a b, toInt_smulProduct a b,
    (lowWord_umulProduct a b).trans (lowWord_smulProduct a b).symm, fun hpos => ?positive, fun hneg => ?negative⟩
  case positive => rw [smulProduct_sign, decide_eq_false (by omega)]
  case negative => rw [smulProduct_sign, decide_eq_true hneg]

/-! ## The 32-bit multiplies -/

theorem exec_mul {i : Instr} {s : State} {sf : Bool} {rd : Reg} {v : Word} (hi : Claims.mulOf s i = some (sf, rd, v))
    (h : executes i s = true) : exec i s = finishMul sf rd v s := by
  obtain ⟨-, hc, hb⟩ := (executes_iff _ _).mp h
  cases i with
  | mul | tMul =>
    cases hi
    rw [← mul_eq_ofNat]
    exact conditional_pass hc hb
  | mla =>
    cases hi
    rw [BitVec.ofNat_add, ← mul_eq_ofNat, BitVec.ofNat_toNat, BitVec.setWidth_eq]
    exact conditional_pass hc hb
  | _ => cases hi

/-- With S = 1 the free value of C is the next draw of the state before. -/
theorem finishMul_draws (rd : Reg) (v : Word) (s : State) : finishMul true rd v s = advance
    { writeReg s rd v with
      cpsr := { s.cpsr with n := v.getLsbD 31, z := decide (v = 0), c := Config.freeBit s.draws }
      draws := s.draws + 1 } := by
  simp only [finishMul, drawBit, writeReg_draws, if_true]
  rfl

/-- Settles O23: an executing multiply writes its result and goes to the next instruction. -/
theorem multiplyResult : Obligations.MultiplyResult := by
  intro i s sf rd v hi he hroom
  rw [exec_mul hi he]
  refine ⟨?keepsFlags, ?setsFlags⟩ <;> rintro rfl
  case keepsFlags => exact advance_past (writeReg_pc s rd v) (by rw [writeReg_cpsr]) hroom
  case setsFlags =>
    rw [finishMul_draws]
    exact advance_past (writeReg_pc s rd v) rfl hroom

/-! ## The long multiplies -/

theorem accumulator_eq_ofNat (s : State) (hi lo : Reg) :
    accumulator s hi lo = BitVec.ofNat 64 ((readReg s hi).toNat * 2 ^ 32 + (readReg s lo).toNat) := by
  have hlt : (readReg s lo).toNat < 2 ^ 32 := (readReg s lo).isLt
  have htoNat : (accumulator s hi lo).toNat = (readReg s hi).toNat * 2 ^ 32 + (readReg s lo).toNat := by
    rw [accumulator, BitVec.toNat_append, ← Nat.shiftLeft_add_eq_or_of_lt hlt, Nat.shiftLeft_eq]
  rw [← htoNat, BitVec.ofNat_toNat, BitVec.setWidth_eq]

theorem accumulator_eq_ofInt (s : State) (hi lo : Reg) :
    accumulator s hi lo = BitVec.ofInt 64 ((readReg s hi).toInt * 2 ^ 32 + (readReg s lo).toNat) := by
  rw [← BitVec.ofInt_toInt (x := accumulator s hi lo), accumulator, BitVec.toInt_append, if_neg (by decide), Int.mul_comm]

theorem exec_mulLong {i : Instr} {s : State} {sf : Bool} {hi lo : Reg} {v : BitVec 64}
    (hm : Claims.mulLongOf s i = some (sf, hi, lo, v)) (h : executes i s = true) : exec i s = finishMulLong sf hi lo v s := by
  obtain ⟨-, hc, hb⟩ := (executes_iff _ _).mp h
  cases i with
  | umull | smull =>
    cases hm
    exact conditional_pass hc hb
  | umlal =>
    cases hm
    rw [BitVec.ofNat_add, ← accumulator_eq_ofNat]
    exact conditional_pass hc hb
  | smlal =>
    cases hm
    rw [BitVec.ofInt_add, ← accumulator_eq_ofInt]
    exact conditional_pass hc hb
  | _ => cases hm

/-- RdHi and RdLo of a long multiply are different registers (R258). -/
theorem mulLongRule_none_ne {hi lo rs rm : Reg} (h : mulLongRule hi lo rs rm = none) : hi ≠ lo := by
  have hs := mulLongRule_isSome hi lo rs rm
  rintro rfl
  simp [h] at hs

theorem mulLongOf_ne {i : Instr} {s : State} {sf : Bool} {hi lo : Reg} {v : BitVec 64}
    (hm : Claims.mulLongOf s i = some (sf, hi, lo, v)) (h : executes i s = true) : hi ≠ lo := by
  obtain ⟨-, -, hb⟩ := (executes_iff _ _).mp h
  cases i with
  | umull | umlal | smull | smlal =>
    cases hm
    exact mulLongRule_none_ne hb
  | _ => cases hm

/-- Writes of different registers commute. -/
theorem writeReg_comm (s : State) {r q : Reg} (v w : Word) (h : r ≠ q) :
    writeReg (writeReg s r v) q w = writeReg (writeReg s q w) r v := by
  simp only [writeReg, writeBank_cpsr]
  cases hr : bank s.cpsr.mode r with
  | none => simp only [writeBank, hr]
  | some x =>
    cases hq : bank s.cpsr.mode q with
    | none => simp only [writeBank, hr, hq]
    | some y =>
      have hxy : x ≠ y := fun e => h (bank_inj _ _ _ (by rw [hr, hq, e]))
      simp only [writeBank, hr, hq, Regs.set_comm _ _ _ hxy]

/-- With S = 1 the free values of C and V are the next two draws of the state before. -/
theorem finishMulLong_draws (hi lo : Reg) (v : BitVec 64) (s : State) : finishMulLong true hi lo v s = advance
    { writeReg (writeReg s lo (v.extractLsb' 0 32)) hi (v.extractLsb' 32 32) with
      cpsr := { s.cpsr with n := v.getLsbD 63, z := decide (v = 0), c := Config.freeBit s.draws,
                            v := Config.freeBit (s.draws + 1) }
      draws := s.draws + 2 } := by
  simp only [finishMulLong, drawBit, writeReg_draws, if_true]
  rfl

/-- Settles O24: an executing long multiply writes its result to two different registers and goes to the next instruction. -/
theorem multiplyLongResult : Obligations.MultiplyLongResult := by
  intro i s sf hi lo v hm he hroom
  rw [exec_mulLong hm he, writeReg_comm s _ _ (mulLongOf_ne hm he)]
  refine ⟨?keepsFlags, ?setsFlags⟩ <;> rintro rfl
  case keepsFlags => exact advance_past (by simp) (by simp) hroom
  case setsFlags =>
    rw [finishMulLong_draws]
    exact advance_past (by simp) rfl hroom

end Sys2Proof.Machine
end

section
/-! Single loads and stores (44_arm_load_store, 48_thumb_load_store): the access taken, aborted or misaligned, its pins, and the
bytes that a store leaves as they were. -/

namespace Sys2Proof.Machine

open Sys2Proof.Claims

/-! ## A register written beside a change of memory, of the bus record and of the draws -/

theorem writeReg_update (s : State) (r : Reg) (v : Word) (m : Memory) (b : List Access) (d : Nat) :
    writeReg { s with mem := m, bus := b, draws := d } r v = { writeReg s r v with mem := m, bus := b, draws := d } := by
  cases h : bank s.cpsr.mode r <;> simp only [writeReg, writeBank, h]

theorem writeBack_update (s : State) (r : Reg) (v : Option Word) (m : Memory) (b : List Access) (d : Nat) :
    writeBack { s with mem := m, bus := b, draws := d } r v = { writeBack s r v with mem := m, bus := b, draws := d } := by
  cases v with
  | none => rfl
  | some v => exact writeReg_update s r v m b d

theorem writeBack_record (s : State) (a : Access) (r : Reg) (v : Option Word) :
    writeBack (record s a) r v = { writeBack s r v with bus := s.bus ++ [a] } := by
  refine (writeBack_update s r v s.mem (s.bus ++ [a]) s.draws).trans ?_
  rw [← writeBack_mem s r v, ← writeBack_draws s r v]

/-! ## The value loaded (R267, R269, R281, R283, R284) -/

theorem setWidth_setWidth_eq_ofNat (v : Word) (n : Nat) : (v.setWidth n).setWidth 32 = BitVec.ofNat 32 (v.toNat % 2 ^ n) := by
  rw [← BitVec.ofNat_toNat, BitVec.toNat_setWidth]

theorem signExtend_setWidth_eq_ofInt (v : Word) (n : Nat) :
    (v.setWidth n).signExtend 32 = BitVec.ofInt 32 (Int.bmod v.toNat (2 ^ n)) := by
  rw [BitVec.signExtend, BitVec.toInt_setWidth]

/-- Extending the bytes an access moves is the arithmetic of the rules. -/
theorem extend_sizeMask (k : LoadKind) (v : Word) : k.extend (sizeMask v k.size) = loadedValue k v := by
  cases k with
  | word => rfl
  | half => exact setWidth_setWidth_eq_ofNat v 16
  | byte => exact setWidth_setWidth_eq_ofNat v 8
  | signedHalf | signedByte =>
    rw [LoadKind.extend, LoadKind.size, sizeMask, BitVec.setWidth_setWidth_of_le _ (by decide), BitVec.setWidth_eq]
    exact signExtend_setWidth_eq_ofInt v _

theorem sizeMask_memRead (big : Bool) (m : Memory) (a : Word) (size : Size) :
    sizeMask (memRead big m a size) size = memRead big m a size := by
  cases size with
  | byte | half => simp [sizeMask, memRead]
  | word => rfl

theorem extend_memRead (k : LoadKind) (big : Bool) (m : Memory) (a : Word) :
    k.extend (memRead big m a k.size) = loadedValue k (memRead big m a k.size) := by
  rw [← extend_sizeMask, sizeMask_memRead]

theorem readMem_of_device {s : State} {a : Word} (h : isMemory s a = false) (size : Size) :
    readMem s a size = (sizeMask (Config.freeWord s.draws) size, { s with draws := s.draws + 1 }) := by
  have hd : s.env.regionAt a = some .device := by simpa [isMemory] using h
  simp only [readMem, hd]
  rfl

/-! ## Loads that are taken -/

/-- R269, R285: of the loads LDR alone, a word, may have R15 as its destination. -/
theorem loadOf_pc_word {i : Instr} {s : State} {x : Xfer} (hi : loadOf s i = some x) (hb : i.broken = none) (hrd : x.rd = 15) :
    x.kind = .word := by
  have hrule : breaksRule i = false := by rw [← broken_isSome, hb, Option.isSome_none]
  cases i with
  | ldrImmPre | ldrImmPost | ldrtImm | ldrRegPre | ldrRegPost | ldrtReg =>
    cases hi
    rfl
  | ldrbImmPre | ldrbImmPost | ldrbtImm | ldrbRegPre | ldrbRegPost | ldrbtReg
  | ldrhReg | ldrhImm | ldrsbReg | ldrsbImm | ldrshReg | ldrshImm =>
    cases hi
    obtain rfl : _ = (15#4) := hrd
    simp [breaksRule, halfBreaks, transferBreaks] at hrule
  | tLdrPc | tLdrReg | tLdrbReg | tLdrhReg | tLdsbReg | tLdshReg | tLdrImm | tLdrbImm | tLdrhImm | tLdrSp =>
    cases hi
    exact absurd hrd (lo_ne_pc _)
  | _ => cases hi

section Taken

variable {s : State} {k : LoadKind} {priv : Bool} {rn rd : Reg} {x : Address}

/-- A load from ordinary memory: the value goes to Rd in the state with the base written back and the access on the bus. -/
theorem loadSingle_memory (h : accessible s x.addr k.size priv false = true) (hm : isMemory s x.addr = true) :
    loadSingle k priv rn rd x s = loadTo rd (loadedValue k (memRead s.env.bigEndian s.mem x.addr k.size))
      { writeBack s rn x.wb with bus := s.bus ++ [dataAccess s x.addr k.size priv false false none] } := by
  obtain ⟨hab, hal⟩ := accessible_iff.mp h
  have hread := fun a => readMem_of_isMemory (s := record s a) hm k.size
  simp only [loadSingle, hab, hal, Bool.false_eq_true, if_false, hread, record_mem, record_env, extend_memRead]
  exact congrArg (loadTo rd _) (writeBack_record s _ rn x.wb)

/-- A load from a device region: the value is the next draw. -/
theorem loadSingle_device (h : accessible s x.addr k.size priv false = true) (hm : isMemory s x.addr = false) :
    loadSingle k priv rn rd x s = loadTo rd (loadedValue k (Config.freeWord s.draws))
      { writeBack s rn x.wb with
        bus := s.bus ++ [dataAccess s x.addr k.size priv false false none], draws := s.draws + 1 } := by
  obtain ⟨hab, hal⟩ := accessible_iff.mp h
  have hread := fun a => readMem_of_device (s := record s a) hm k.size
  simp only [loadSingle, hab, hal, Bool.false_eq_true, if_false, hread, record_draws, extend_sizeMask]
  refine congrArg (loadTo rd _) ((writeBack_update s rn x.wb s.mem _ _).trans ?_)
  rw [← writeBack_mem s rn x.wb]
  rfl

theorem loadTo_register {u : State} (hpc : u.pc = s.pc) (hc : u.cpsr = s.cpsr) (hrd : rd ≠ 15) (hroom : room s = true) (v : Word)
    (b : List Access) (d : Nat) :
    loadTo rd v { u with bus := b, draws := d } = .next (past s { writeReg u rd v with bus := b, draws := d }) := by
  rw [loadTo, if_neg hrd, writeReg_update, ← writeReg_mem u rd v]
  exact advance_past (by simp [hpc]) (by simp [hc]) hroom

theorem loadTo_pc (hrd : rd = 15) (v : Word) (u : State) : loadTo rd v u = .next (goTo (v &&& 0xFFFFFFFC) u) := by
  rw [loadTo, if_pos hrd]
  rfl

end Taken

/-- Settles O26: ordinary memory and a device region, each with a register and with R15 as the destination. -/
theorem singleLoad : Obligations.SingleLoad := by
  intro i s x hi he ha
  obtain ⟨-, -, hb⟩ := (executes_iff i s).mp he
  have hword := loadOf_pc_word hi hb
  have hpc := writeBack_pc s x.rn x.loc.wb
  have hcpsr := writeBack_cpsr s x.rn x.loc.wb
  rw [exec_load hi he]
  refine ⟨fun hrd hroom hm => ?register, fun hrd hm => ?pc, fun hrd hroom hm => ?registerDevice, fun hrd hm => ?pcDevice⟩
  case register =>
    rw [loadSingle_memory ha hm]
    exact (loadTo_register hpc hcpsr hrd hroom _ _ _).trans (by simp only [writeReg_draws])
  case pc =>
    rw [loadSingle_memory ha hm, loadTo_pc hrd, hword hrd]
    rfl
  case registerDevice =>
    rw [loadSingle_device ha hm]
    exact loadTo_register hpc hcpsr hrd hroom _ _ _
  case pcDevice =>
    rw [loadSingle_device ha hm, loadTo_pc hrd, hword hrd]
    rfl

/-! ## Stores that are taken -/

/-- A write is stored in ordinary memory alone (92_eei_decisions D4). -/
theorem writeMem_eq (s : State) (a : Word) (size : Size) (v : Word) :
    writeMem s a size v = { s with mem := if isRam s a then memWrite s.env.bigEndian s.mem a v size else s.mem } := by
  cases h : s.env.regionAt a <;> simp [writeMem, isRam, h]

/-- A store that the memory system takes: the value Rd has before the write-back is stored, and the instruction advances. -/
theorem storeSingle_taken {s : State} {size : Size} {priv : Bool} {rn rd : Reg} {x : Address}
    (h : accessible s x.addr size priv true = true) {v : Word} (hv : storeValue s s.cpsr.mode rd = v) :
    storeSingle size priv rn rd x s = advance
      { writeBack s rn x.wb with
        mem := if isRam s x.addr then memWrite s.env.bigEndian s.mem x.addr v size else s.mem
        bus := s.bus ++ [dataAccess s x.addr size priv true false (some (lanes v size))]
        draws := s.draws } := by
  obtain ⟨hab, hal⟩ := accessible_iff.mp h
  simp only [storeSingle, hab, hal, hv, Bool.false_eq_true, if_false, writeMem_eq]
  exact congrArg advance (writeBack_update s rn x.wb _ _ _)

/-- Settles O27: the state a taken store advances from has the pc and T as they were. -/
theorem singleStore : Obligations.SingleStore := by
  intro i s x v hi he hroom ha hv
  rw [exec_store hi he, storeSingle_taken ha hv.symm]
  refine (advance_past (by simp) (by simp) hroom).trans ?_
  simp only [writeBack_draws]

/-! ## Transfers that are aborted or misaligned -/

section NotTaken

variable {s : State} {k : LoadKind} {size : Size} {priv : Bool} {rn rd : Reg} {x : Address}

theorem loadSingle_aborted (h : abortsData s x.addr k.size priv false = true) : ∃ a,
    loadSingle k priv rn rd x s = .next (takeDataAbort (writeBack (record s a) rn x.wb)) :=
  ⟨_, if_pos h⟩

theorem storeSingle_aborted (h : abortsData s x.addr size priv true = true) : ∃ a,
    storeSingle size priv rn rd x s = .next (takeDataAbort (writeBack (record s a) rn x.wb)) :=
  ⟨_, if_pos h⟩

theorem loadSingle_misaligned (ha : abortsData s x.addr k.size priv false = false) (hm : misaligned x.addr k.size = true) :
    loadSingle k priv rn rd x s = .refused .misalignedData := by
  simp only [loadSingle, ha, hm, Bool.false_eq_true, if_false, if_true]

theorem storeSingle_misaligned (ha : abortsData s x.addr size priv true = false) (hm : misaligned x.addr size = true) :
    storeSingle size priv rn rd x s = .refused .misalignedData := by
  simp only [storeSingle, ha, hm, Bool.false_eq_true, if_false, if_true]

/-- The Data Abort of a transfer finds the base written back and nothing else changed. -/
theorem takeDataAbort_writeBack (s : State) (a : Access) (rn : Reg) (wb : Option Word) :
    TookDataAbort s (takeDataAbort (writeBack (record s a) rn wb)) ∧
    (takeDataAbort (writeBack (record s a) rn wb)).mem = s.mem ∧
    ∀ p, p ≠ .r14Abt → (takeDataAbort (writeBack (record s a) rn wb)).regs.get p = (writeBack s rn wb).regs.get p := by
  refine ⟨tookDataAbort (by simp) (by simp), by simp [takeDataAbort], fun p hp => ?_⟩
  calc (takeDataAbort (writeBack (record s a) rn wb)).regs.get p
      = (writeBack (record s a) rn wb).regs.get p := Regs.get_set_ne _ _ hp
    _ = (writeBack s rn wb).regs.get p := by rw [writeBack_record]

end NotTaken

/-- Settles O28: the abort is looked at first, then the alignment. -/
theorem singleAbort : Obligations.SingleAbort := by
  intro i s x write hi he
  cases write with
  | false =>
    rw [exec_load hi he]
    refine ⟨fun h => ?_, loadSingle_misaligned⟩
    obtain ⟨a, ha⟩ := loadSingle_aborted h
    exact ⟨_, ha, takeDataAbort_writeBack s a x.rn x.loc.wb⟩
  | true =>
    rw [exec_store hi he]
    refine ⟨fun h => ?_, storeSingle_misaligned⟩
    obtain ⟨a, ha⟩ := storeSingle_aborted h
    exact ⟨_, ha, takeDataAbort_writeBack s a x.rn x.loc.wb⟩

/-! ## The pins of the access (R277, 20_memory R98 to R101) -/

theorem Mode.privileged_eq_decide (m : Mode) : m.privileged = decide (m ≠ .usr) := by
  cases m <;> rfl

/-- R277: a T variant has User privilege, every other form that of the mode. -/
theorem loadOf_priv {i : Instr} {s : State} {x : Xfer} (hi : loadOf s i = some x) :
    x.priv = if isTVariant i then false else decide (s.cpsr.mode ≠ .usr) := by
  rw [← Mode.privileged_eq_decide]
  cases i <;> cases hi <;> rfl

theorem storeOf_priv {i : Instr} {s : State} {x : Xfer} (hi : storeOf s i = some x) :
    x.priv = if isTVariant i then false else decide (s.cpsr.mode ≠ .usr) := by
  rw [← Mode.privileged_eq_decide]
  cases i <;> cases hi <;> rfl

theorem loadSingle_bus {k : LoadKind} {priv : Bool} {rn rd : Reg} {x : Address} {s t : State}
    (h : loadSingle k priv rn rd x s = .next t) : t.bus = s.bus ++ [dataAccess s x.addr k.size priv false false none] := by
  obtain ⟨-, rfl⟩ | ⟨-, -, v, u, hu, h⟩ := loadSingle_next h
  · simp [takeDataAbort, accessOf, dataAccess]
  · obtain rfl : _ = u := congrArg Prod.snd hu
    obtain ⟨-, rfl⟩ | ⟨-, ha⟩ := loadTo_next h
    · simp [accessOf, dataAccess]
    · obtain ⟨-, rfl⟩ := advance_next ha
      simp [accessOf, dataAccess]

theorem storeSingle_bus {size : Size} {priv : Bool} {rn rd : Reg} {x : Address} {s t : State}
    (h : storeSingle size priv rn rd x s = .next t) :
    t.bus = s.bus ++ [dataAccess s x.addr size priv true false (some (lanes (storeValue s s.cpsr.mode rd) size))] := by
  obtain ⟨-, rfl⟩ | ⟨-, -, ha⟩ := storeSingle_next h
  · simp [takeDataAbort, accessOf, dataAccess]
  · obtain ⟨-, rfl⟩ := advance_next ha
    simp [accessOf, dataAccess]

/-- Settles O29: a completed load or store, aborted or not, adds one access, whose pins are the instruction's. -/
theorem accessPins : Obligations.AccessPins := by
  rintro i s t x (hi | hi) he h
  · rw [exec_load hi he] at h
    exact ⟨_, loadSingle_bus h, rfl, rfl, rfl, loadOf_priv hi⟩
  · rw [exec_store hi he] at h
    exact ⟨_, storeSingle_bus h, rfl, rfl, rfl, storeOf_priv hi⟩

/-! ## The bytes outside a store -/

theorem exec_of_storeOf {i : Instr} {s : State} {x : Xfer} (hi : storeOf s i = some x) :
    exec i s = conditional (condOf i) i.broken s (storeSingle x.kind.size x.priv x.rn x.rd x.loc s) := by
  cases i <;> cases hi <;> rfl

theorem exec_of_swapOf {i : Instr} {s : State} {size : Size} {rn rd rm : Reg} (hi : swapOf i = some (size, rn, rd, rm)) :
    exec i s = conditional (condOf i) i.broken s (swap size rn rd rm s) := by
  cases i <;> cases hi <;> rfl

/-- `writeMem_read_outside` for an access of any size. -/
theorem writeMem_spares {s : State} {a : Nat} {x : Word} {size : Size} (v : Word) (hx : misaligned x size = false)
    (ha : outside a x size.bytes = true) : (writeMem s x size v).mem.read a = s.mem.read a := by
  unfold writeMem
  split
  · rfl
  · exact memWrite_read_outside _ _ _ hx (by simpa [outside] using ha)

theorem storeSingle_spares {size : Size} {priv : Bool} {rn rd : Reg} {x : Address} {s t : State} {a : Nat}
    (h : storeSingle size priv rn rd x s = .next t) (ha : outside a x.addr size.bytes = true) :
    t.mem.read a = s.mem.read a := by
  obtain ⟨-, rfl⟩ | ⟨-, hx, hadv⟩ := storeSingle_next h
  · simp [takeDataAbort]
  · obtain ⟨-, rfl⟩ := advance_next hadv
    simp [writeMem_spares _ hx ha]

theorem swap_spares {size : Size} {rn rd rm : Reg} {s t : State} {a : Nat} (h : swap size rn rd rm s = .next t)
    (ha : outside a (readReg s rn) size.bytes = true) : t.mem.read a = s.mem.read a := by
  obtain ⟨-, rfl⟩ | ⟨hx, v, u, hu, h⟩ := swap_next h
  · simp [takeDataAbort]
  · obtain rfl : _ = u := congrArg Prod.snd hu
    obtain ⟨-, rfl⟩ | ⟨-, hadv⟩ := h
    · simp [takeDataAbort]
    · obtain ⟨-, rfl⟩ := advance_next hadv
      simp [writeMem_spares _ hx ha]

/-- What spares the byte where the instruction has its effect spares it where only the pc advances. -/
theorem conditional_spares {c : Cond} {b : Option Restriction} {s t : State} {r : Result} {a : Nat}
    (h : conditional c b s r = .next t) (hr : r = .next t → t.mem.read a = s.mem.read a) : t.mem.read a = s.mem.read a := by
  obtain ⟨-, -, h⟩ | ⟨-, h⟩ := conditional_next h
  · exact hr h
  · obtain ⟨-, rfl⟩ := advance_next h
    rfl

theorem exec_blockStore_spares {i : Instr} {s t : State} {b : Block} (hi : blockStoreOf s i = some b) (h : exec i s = .next t)
    {a : Nat} (ha : outside a b.start (4 * b.regs.length) = true) : t.mem.read a = s.mem.read a := by
  cases exec_made h with
  | reads l hl hm => rw [hm.mem, foldl_replay_reads l s hl]
  | store hs => simp [blockStoreOf_excludes hi] at hs
  | swap hs => exact absurd (hi.symm.trans (swapOf_excludes hs).2) nofun
  | blockStore b' hb hr hm =>
    obtain rfl : b = b' := Option.some.inj (hi.symm.trans hb)
    have hwords := storeWords_take_read_outside hr (blockWords s b).length ha
    rw [List.take_length] at hwords
    rw [hm.mem, ← (storeWords_made s (blockWords s b)).mem, hwords]

/-- Settles O54: what is written is aligned, so it stays inside the bytes of the access or of the block. -/
theorem frameStores : Obligations.FrameStores := by
  intro i s t h a
  refine ⟨fun x hi ha => ?single, fun size rn rd rm hi ha => ?swap, fun b hi ha => exec_blockStore_spares hi h ha⟩
  case single => exact conditional_spares (exec_of_storeOf hi ▸ h) fun hs => storeSingle_spares hs ha
  case swap => exact conditional_spares (exec_of_swapOf hi ▸ h) fun hs => swap_spares hs ha

end Sys2Proof.Machine
end

section
/-! SWP and SWPB (45_arm_block_swap R310, R311): the exchange, and where it aborts or is refused. -/

namespace Sys2Proof.Machine

open Sys2Proof.Claims

/-- A recorded access does not show in what a read delivers. -/
theorem readMem_record {s : State} {a : Word} {size : Size} {v : Word} {d : Nat}
    (h : readMem s a size = (v, { s with draws := d })) (x : Access) :
    readMem (record s x) a size = (v, { record s x with draws := d }) := by
  cases hm : isMemory s a with
  | true =>
    rw [readMem_of_isMemory hm] at h
    obtain ⟨rfl, hs⟩ := Prod.mk.inj h
    obtain rfl : s.draws = d := congrArg State.draws hs
    exact readMem_of_isMemory (s := record s x) hm size
  | false =>
    rw [readMem_of_device hm] at h
    obtain ⟨rfl, hs⟩ := Prod.mk.inj h
    obtain rfl : s.draws + 1 = d := congrArg State.draws hs
    exact readMem_of_device (s := record s x) hm size

section

variable {s : State} {size : Size} {rn rd rm : Reg}

/-- A swap whose read and write the memory system takes: Rd gets what the read delivers, memory the old Rm. -/
theorem swap_taken (hr : accessible s (readReg s rn) size s.cpsr.mode.privileged false = true)
    (hw : accessible s (readReg s rn) size s.cpsr.mode.privileged true = true) {v : Word} {d : Nat}
    (hread : readMem s (readReg s rn) size = (v, { s with draws := d })) :
    swap size rn rd rm s = advance
      { writeReg s rd v with
        mem := if isRam s (readReg s rn) then memWrite s.env.bigEndian s.mem (readReg s rn) (readReg s rm) size else s.mem
        bus := s.bus ++ [dataAccess s (readReg s rn) size s.cpsr.mode.privileged false true none,
          dataAccess s (readReg s rn) size s.cpsr.mode.privileged true true (some (lanes (readReg s rm) size))]
        draws := d } := by
  obtain ⟨hab, hal⟩ := accessible_iff.mp hr
  simp only [swap, hab, hal, (accessible_iff.mp hw).1, readMem_record hread, writeMem_eq, Bool.false_eq_true, if_false]
  refine congrArg advance ((writeReg_update s rd v _ _ _).trans ?_)
  simp [isRam, accessOf, dataAccess]

theorem swap_misaligned (ha : abortsData s (readReg s rn) size s.cpsr.mode.privileged false = false)
    (hm : misaligned (readReg s rn) size = true) : swap size rn rd rm s = .refused .misalignedData := by
  simp only [swap, ha, hm, Bool.false_eq_true, if_false, if_true]

theorem swap_read_aborted (ha : abortsData s (readReg s rn) size s.cpsr.mode.privileged false = true) :
    swap size rn rd rm s = .next (takeDataAbort
      (record s (dataAccess s (readReg s rn) size s.cpsr.mode.privileged false true none))) :=
  if_pos ha

/-- Where the write is aborted the read was made, and may have drawn a value. -/
theorem swap_write_aborted (hr : accessible s (readReg s rn) size s.cpsr.mode.privileged false = true)
    (hw : abortsData s (readReg s rn) size s.cpsr.mode.privileged true = true) :
    ∃ x y d, swap size rn rd rm s = .next (takeDataAbort (record { record s x with draws := d } y)) := by
  obtain ⟨hab, hal⟩ := accessible_iff.mp hr
  obtain ⟨d, hd⟩ := readMem_frame (record s (accessOf s (readReg s rn) size s.cpsr.mode.privileged false true none))
    (readReg s rn) size
  simp only [swap, hab, hal, hw, hd, Bool.false_eq_true, if_false, if_true]
  exact ⟨_, _, d, rfl⟩

end

/-- Settles O34: the read is looked at first, then the alignment, then the write; a taken swap advances from the exchange made.
(`swap` names the machine's own operation.) -/
theorem swap_completes : Obligations.Swap := by
  intro i s size rn rd rm hi he
  rw [exec_swap hi he]
  refine ⟨fun hr hw hroom => ?taken, swap_misaligned, fun ha => ?readAborted, fun hr hw => ?writeAborted⟩
  case taken =>
    cases hm : isMemory s (readReg s rn) with
    | true =>
      rw [swap_taken hr hw (readMem_of_isMemory hm size)]
      refine (advance_past (by simp) (by simp) hroom).trans ?_
      simp
    | false =>
      rw [swap_taken hr hw (readMem_of_device hm size)]
      exact advance_past (by simp) (by simp) hroom
  case readAborted =>
    exact ⟨_, swap_read_aborted ha, tookDataAbort rfl rfl, rfl, rfl, fun p hp => Regs.get_set_ne _ _ hp⟩
  case writeAborted =>
    obtain ⟨x, y, d, h⟩ := swap_write_aborted (rm := rm) (rd := rd) hr hw
    exact ⟨_, h, tookDataAbort rfl rfl, rfl, fun p hp => Regs.get_set_ne _ _ hp⟩

end Sys2Proof.Machine
end

section
/-! Block loads that are taken (45_arm_block_swap R301 to R304, R314, 48_thumb_load_store R425, R427): the words read, the registers
they go to, and how the instruction goes on. -/

namespace Sys2Proof.Machine

open Sys2Proof.Claims

/-! ## The registers of a block, lowest first -/

theorem regsOf_ascending {n : Nat} (list : BitVec n) : (regsOf list).Pairwise (· < ·) :=
  .filter _ (by decide : allRegs.Pairwise (· < ·))

/-- R301: the registers of a block load are in ascending order. -/
theorem blockLoadOf_ascending {i : Instr} {s : State} {b : Block} (hi : blockLoadOf s i = some b) :
    b.regs.Pairwise (· < ·) := by
  cases i <;> cases hi
  case ldm | ldmRet | ldmUser | tLdmia => exact regsOf_ascending _
  case tPop r list =>
    refine List.pairwise_append.mpr ⟨regsOf_ascending list, by cases r <;> simp, fun q hq p hp => ?_⟩
    obtain rfl : p = 15 := by cases r <;> simp_all
    have hq' : q ≠ 15#4 := by
      rintro rfl
      simp [mem_regsOf, listed] at hq
    show q < 15#4
    bv_omega

/-- R15, where it is in an ascending list, is the last. -/
theorem pc_last {l : List Reg} (h : l.Pairwise (· < ·)) (hpc : (15 : Reg) ∈ l) : l[l.length - 1]? = some 15 := by
  obtain ⟨k, hk, hkl⟩ := List.getElem_of_mem hpc
  have hlast : k = l.length - 1 := by
    by_contra hne
    have hlt := List.pairwise_iff_getElem.mp h k (l.length - 1) hk (by omega) (by omega)
    rw [hkl] at hlt
    bv_omega
  rw [← hlast, List.getElem?_eq_getElem hk, hkl]

/-! ## Values by register -/

/-- A value is found by its register where no two have the same one. -/
theorem lookup_of_mem {l : List (Reg × Word)} (hl : (l.map Prod.fst).Nodup) {r : Reg} {v : Word} (h : (r, v) ∈ l) :
    l.lookup r = some v := by
  induction l with
  | nil => cases h
  | cons x l ih =>
    obtain ⟨hx, hl⟩ := List.nodup_cons.mp hl
    rcases List.mem_cons.mp h with rfl | h
    · exact List.lookup_cons_self
    · have hne : (r == x.1) = false := beq_false_of_ne fun e => hx (e ▸ List.mem_map_of_mem h)
      rw [List.lookup_cons, hne]
      exact ih hl h

/-- What a register holds after several writes, one of them to this one. -/
theorem writeRegs_get {m : Mode} {s : State} {l : List (Reg × Word)} (hl : (l.map Prod.fst).Nodup) {r : Reg} {v : Word}
    (h : (r, v) ∈ l) {p : Phys} (hp : bank m r = some p) : (writeRegs m s l).regs.get p = v := by
  induction l generalizing s with
  | nil => cases h
  | cons x l ih =>
    obtain ⟨hx, hl⟩ := List.nodup_cons.mp hl
    rcases List.mem_cons.mp h with rfl | h
    · have hrest : ∀ y ∈ l, bank m y.1 ≠ some p := fun y hy hb =>
        hx (bank_inj m _ _ (hb.trans hp.symm) ▸ List.mem_map.mpr ⟨y, hy, rfl⟩)
      rw [writeRegs, writeRegs_get_ne m _ l p hrest, writeBank_get, if_pos hp]
    · exact ih hl h

/-! ## The words read -/

theorem readWords_length (s : State) (l : List Word) : (readWords s l).1.length = l.length := by
  induction l generalizing s with
  | nil => rfl
  | cons a l ih => simp [readWords, ih]

/-- A word of ordinary memory is read as memory holds it, whatever was drawn for the words before it. -/
theorem readWords_getElem? {s u : State} (hm : u.mem = s.mem) (he : u.env = s.env) {l : List Word} {k : Nat} {a : Word}
    (hk : l[k]? = some a) (ha : isMemory s a = true) :
    (readWords u l).1[k]? = some (memRead s.env.bigEndian s.mem a .word) := by
  induction l generalizing u k with
  | nil => cases hk
  | cons x l ih =>
    cases k with
    | zero =>
      obtain rfl : x = a := by simpa using hk
      have hu : isMemory u x = true := by rw [← ha, isMemory, isMemory, he]
      simp [readWords, readMem_of_isMemory hu, hm, he]
    | succ k => exact ih (by simp [hm]) (by simp [he]) hk

/-- The registers of a block load, each with the word read for it. -/
def loadedPairs (s : State) (b : Block) : List (Reg × Word) :=
  b.regs.zip (readWords (recordReads s (blockAddrs b.start b.regs.length)) (blockAddrs b.start b.regs.length)).1

/-- What a block load leaves before the pc moves on: the base written back, then the registers but R15 loaded. -/
def blockLoaded (s : State) (b : Block) : State :=
  writeRegs b.mode
    (writeBack (readWords (recordReads s (blockAddrs b.start b.regs.length)) (blockAddrs b.start b.regs.length)).2 b.rn b.wb)
    ((loadedPairs s b).filter (fun x => x.1 != 15))

theorem map_fst_loadedPairs (s : State) (b : Block) : (loadedPairs s b).map Prod.fst = b.regs :=
  List.map_fst_zip (by simp [readWords_length, blockAddrs_eq])

theorem nodup_loadedPairs (s : State) {b : Block} (hb : b.regs.Pairwise (· < ·)) : ((loadedPairs s b).map Prod.fst).Nodup := by
  rw [map_fst_loadedPairs]
  exact hb.nodup

theorem mem_loadedPairs {s : State} {b : Block} {k : Nat} {r : Reg} (hk : b.regs[k]? = some r)
    (hm : isMemory s (b.addr k) = true) : (r, memRead s.env.bigEndian s.mem (b.addr k) .word) ∈ loadedPairs s b := by
  obtain ⟨hlt, -⟩ := List.getElem?_eq_some_iff.mp hk
  have haddr : (blockAddrs b.start b.regs.length)[k]? = some (b.addr k) := by simp [blockAddrs_eq, hlt, Block.addr]
  exact List.mem_of_getElem? (List.getElem?_zip_eq_some.mpr ⟨hk, readWords_getElem? (by simp) (by simp) haddr hm⟩)

section Loaded

variable (s : State) (b : Block)

@[simp] theorem blockLoaded_pc : (blockLoaded s b).pc = s.pc := by simp [blockLoaded]

@[simp] theorem blockLoaded_cpsr : (blockLoaded s b).cpsr = s.cpsr := by simp [blockLoaded]

@[simp] theorem blockLoaded_spsrs : (blockLoaded s b).spsrs = s.spsrs := by simp [blockLoaded]

@[simp] theorem blockLoaded_mem : (blockLoaded s b).mem = s.mem := by simp [blockLoaded]

@[simp] theorem blockLoaded_userLdm : (blockLoaded s b).userLdm = s.userLdm := by simp [blockLoaded]

end Loaded

theorem writeBack_regs_congr {s u : State} (hr : u.regs = s.regs) (hc : u.cpsr = s.cpsr) (r : Reg) (v : Option Word) :
    (writeBack u r v).regs = (writeBack s r v).regs := by
  cases v with
  | none => exact hr
  | some v => simp only [writeBack, writeReg, writeBank_regs, hr, hc]

theorem blockLoaded_get {s : State} {b : Block} (hb : b.regs.Pairwise (· < ·)) {k : Nat} {r : Reg} {p : Phys}
    (hk : b.regs[k]? = some r) (hp : bank b.mode r = some p) (hm : isMemory s (b.addr k) = true) :
    (blockLoaded s b).regs.get p = memRead s.env.bigEndian s.mem (b.addr k) .word := by
  have hpc : r ≠ 15#4 := by
    rintro rfl
    simp at hp
  exact writeRegs_get ((nodup_loadedPairs s hb).sublist (List.filter_sublist.map _))
    (List.mem_filter.mpr ⟨mem_loadedPairs hk hm, by simpa using hpc⟩) hp

theorem blockLoaded_get_ne {s : State} {b : Block} {p : Phys} (hp : ∀ r ∈ b.regs, bank b.mode r ≠ some p) :
    (blockLoaded s b).regs.get p = (writeBack s b.rn b.wb).regs.get p := by
  rw [blockLoaded, writeRegs_get_ne]
  · rw [writeBack_regs_congr (s := s) (by simp) (by simp)]
  · exact fun x hx => hp x.1 (List.of_mem_zip (List.mem_filter.mp hx).1).1

/-! ## How a block load goes on -/

/-- A block load that nothing refuses or aborts goes on by the word read for R15, if any. -/
theorem blockLoad_taken (e : BlockEnd) {s : State} {b : Block} (hf : b.fits = true) (ha : b.aborts s false = false) :
    blockLoad e b.mode b.rn b.regs b.start b.wb s = endBlock e ((loadedPairs s b).lookup 15) (blockLoaded s b) := by
  simp only [blockLoad, blockRefusal_none s b false hf, blockAborts_eq, ha, Bool.false_eq_true, if_false]
  rfl

theorem lookup_pc_eq_none {s : State} {b : Block} (hpc : (15 : Reg) ∉ b.regs) : (loadedPairs s b).lookup 15 = none := by
  exact List.lookup_eq_none_iff.mpr fun x hx => bne_iff_ne.mpr fun h => hpc (h ▸ (List.of_mem_zip hx).1)

/-- The word for R15 is the last, as memory holds it where it is ordinary memory. -/
theorem lookup_pc {s : State} {b : Block} (hb : b.regs.Pairwise (· < ·)) (hpc : (15 : Reg) ∈ b.regs) :
    ∃ v, (loadedPairs s b).lookup 15 = some v ∧ (isMemory s (b.addr (b.regs.length - 1)) = true →
      v = memRead s.env.bigEndian s.mem (b.addr (b.regs.length - 1)) .word) := by
  have hnodup := nodup_loadedPairs s hb
  obtain ⟨⟨r, v⟩, hx, rfl⟩ := List.mem_map.mp (map_fst_loadedPairs s b ▸ hpc)
  refine ⟨v, lookup_of_mem hnodup hx, fun hm => ?_⟩
  have hv := lookup_of_mem hnodup (mem_loadedPairs (pc_last hb hpc) hm)
  rw [lookup_of_mem hnodup hx] at hv
  exact Option.some.inj hv

/-- Without R15 a block load advances; the User-bank form leaves the hazard behind it (R314). -/
theorem endBlock_none {i : Instr} {s u : State} {b : Block} (hi : blockLoadOf s i = some b) :
    endBlock (blockEndOf i) none u = advance { u with userLdm := isUserLoad i || u.userLdm } := by
  cases i <;> cases hi <;> rfl

/-- With R15 a block load that is no return branches to the word, masked as the state says (R302, R425). -/
theorem endBlock_pc {i : Instr} {s u : State} {b : Block} {v : Word} (hi : blockLoadOf s i = some b) (hret : isReturn i = false)
    (ht : s.cpsr.t = isThumb i) :
    endBlock (blockEndOf i) (some v) u = .next (branchTo (v &&& (if s.cpsr.t then 0xFFFFFFFE else 0xFFFFFFFC)) u) := by
  rw [ht]
  cases i <;> cases hi
  case ldmRet => cases hret
  case ldm | ldmUser | tPop | tLdmia => rfl

theorem isUserLoad_eq_false {i : Instr} {s : State} {b : Block} (hi : blockLoadOf s i = some b) (hpc : (15 : Reg) ∈ b.regs) :
    isUserLoad i = false := by
  cases i <;> cases hi
  case ldmUser => simp [userBlock, mem_regsOf, listed] at hpc
  case ldm | ldmRet | tPop | tLdmia => rfl

theorem hasUserBank_eq_false {m : Mode} (h : m = .usr ∨ m = .sys) : hasUserBank m = false := by
  rcases h with rfl | rfl <;> rfl

/-- R303, R304, R306: a form that needs a bank or an SPSR of the mode's own is refused where the mode has none. -/
theorem exec_needsBank_refused {i : Instr} {s : State} (he : executes i s = true) (hn : needsBank i = true)
    (hm : s.cpsr.mode = .usr ∨ s.cpsr.mode = .sys) :
    exec i s = .refused (if isReturn i then .noSpsr else .userBankMode) := by
  obtain ⟨-, hc, hb⟩ := (executes_iff _ _).mp he
  have hbank : ¬ hasUserBank s.cpsr.mode = true := by simp [hasUserBank_eq_false hm]
  cases i <;> cases hn
  case ldmRet | ldmUser | stmUser => exact (conditional_pass hc hb).trans (if_neg hbank)

/-- Settles O30: the state a taken block load leaves (`blockLoaded`), and from it the advance or the branch. (`blockLoad` names the
machine's own operation.) -/
theorem blockLoad_completes : Obligations.BlockLoad := by
  refine ⟨fun i s b hi hret he hbank hf ha hgo => ?_, fun c p u w rn list s he => exec_needsBank_refused he rfl⟩
  have hasc := blockLoadOf_ascending hi
  rw [exec_blockLoad hi he hbank, blockLoad_taken _ hf ha]
  by_cases hpc : (15 : Reg) ∈ b.regs
  · obtain ⟨v, hv, hmem⟩ := lookup_pc (s := s) hasc hpc
    rw [hv, endBlock_pc hi hret ((executes_iff i s).mp he).1]
    exact ⟨_, rfl, fun k r p => blockLoaded_get hasc, fun p => blockLoaded_get_ne, fun h => absurd hpc h,
      fun _ hm => by rw [branchTo_pc, hmem hm], by simp [isUserLoad_eq_false hi hpc], rfl, by simp, by simp, by simp⟩
  · rw [lookup_pc_eq_none hpc, endBlock_none hi, advance_past (s := s) (by simp) (by simp) (hgo.resolve_left hpc)]
    exact ⟨_, rfl, fun k r p => blockLoaded_get hasc, fun p => blockLoaded_get_ne, fun _ => rfl, fun h => absurd h hpc,
      by simp [past], rfl, by simp [past], by simp [past], by simp [past]⟩

/-! ## LDM with ^ and R15 -/

/-- The return that ends an LDM ignores the low bits of the target as the restored T says (60_exceptions R483). -/
theorem exceptionReturn_masked {s : State} {q : Psr} (h : s.spsrs.get s.cpsr.mode = some q.toWord) (a : Word) :
    exceptionReturn true a s = .next (branchTo (a &&& (if q.t then 0xFFFFFFFE else 0xFFFFFFFC)) { s with cpsr := q }) := by
  simp only [exceptionReturn, h, Psr.ofWord_toWord, if_true]
  cases q.t <;> rfl

theorem isSome_spsr_of_badReturn {s : State} (h : badReturn s = true) : (s.spsrs.get s.cpsr.mode).isSome = true := by
  unfold badReturn at h
  split at h
  case h_1 w hw => rw [hw, Option.isSome_some]
  case h_2 => cases h

/-- In a mode with an SPSR, LDM with ^ and R15 returns to the last word from the state with the list loaded. -/
theorem exec_ldmRet_returns {c : Cond} {p u w : Bool} {rn : Reg} {list : BitVec 15} {s : State} {b : Block}
    (hi : blockLoadOf s (.ldmRet c p u w rn list) = some b)
    (he : executes (.ldmRet c p u w rn list) s = true) (hf : b.fits = true) (ha : b.aborts s false = false)
    (hspsr : (s.spsrs.get s.cpsr.mode).isSome = true) :
    ∃ v, exec (.ldmRet c p u w rn list) s = exceptionReturn true v (blockLoaded s b) ∧
      (isMemory s (b.addr (b.regs.length - 1)) = true →
        v = memRead s.env.bigEndian s.mem (b.addr (b.regs.length - 1)) .word) := by
  have hbank : bankOk (.ldmRet c p u w rn list) s = true := by
    have hno := mt (Spsrs.get_eq_none s.spsrs s.cpsr.mode).mpr (Option.isSome_iff_ne_none.mp hspsr)
    simpa [bankOk, needsBank] using hno
  have hpc : (15 : Reg) ∈ b.regs := by
    cases hi
    exact mem_regsOf.mpr (by rw [listed, BitVec.getLsbD_append]; rfl)
  obtain ⟨v, hv, hmem⟩ := lookup_pc (s := s) (blockLoadOf_ascending hi) hpc
  rw [exec_blockLoad hi he hbank, blockLoad_taken _ hf ha, hv]
  exact ⟨v, rfl, hmem⟩

/-- Settles O31: the return from the state a taken block load leaves, by what the SPSR of the mode is. -/
theorem blockLoadReturn : Obligations.BlockLoadReturn := by
  intro c p u w rn list s b hi he
  refine ⟨exec_needsBank_refused he rfl, fun hf ha hbad => ?illegal, fun q hf ha hq => ?returns⟩
  case illegal =>
    obtain ⟨v, hv, -⟩ := exec_ldmRet_returns hi he hf ha (isSome_spsr_of_badReturn hbad)
    rw [hv]
    exact exceptionReturn_illegalMode (by simpa [badReturn] using hbad) true v
  case returns =>
    obtain ⟨v, hv, hmem⟩ := exec_ldmRet_returns hi he hf ha (by simp [hq])
    have hmode : b.mode = s.cpsr.mode := by
      cases hi
      rfl
    rw [hv, exceptionReturn_masked (by simpa using hq), ← hmode]
    exact ⟨_, rfl, fun k r ph => blockLoaded_get (blockLoadOf_ascending hi), fun ph => blockLoaded_get_ne, rfl,
      fun hm => by rw [branchTo_pc, hmem hm], by simp, by simp, by simp⟩

end Sys2Proof.Machine
end

section
/-! Block stores that are taken (45_arm_block_swap R305, R306, 48_thumb_load_store R424, R426), and block transfers that wrap, that are
misaligned or that abort (R308, R309). -/

namespace Sys2Proof.Machine

open Sys2Proof.Claims

/-! ## What a block store leaves of each word -/

theorem blockWords_getElem? {s : State} {b : Block} {k : Nat} (hk : k < b.regs.length) :
    (blockWords s b)[k]? = some (b.addr k, storeValue s b.mode b.regs[k]) := by
  refine List.getElem?_zip_eq_some.mpr ⟨?_, ?_⟩
  · simp [blockAddrs_eq, hk, Block.addr]
  · simp [hk]

/-- An aligned word is read from its own four bytes. -/
theorem memRead_word_congr {big : Bool} {m m' : Memory} {x : Word} (hx : wordAligned x = true)
    (h : ∀ a, outside a x 4 = false → m.read a = m'.read a) : memRead big m x .word = memRead big m' x .word := by
  have hal : misaligned x .word = false := by simp [misaligned, hx]
  have hbyte : ∀ k, k < 4 → byteAt m x k = byteAt m' x k := fun k hk => by
    rw [byteAt, byteAt, toNat_add_aligned hal hk]
    exact h _ (by simp [outside, hk])
  simp only [memRead, hbyte 0, hbyte 1, hbyte 2, hbyte 3, Nat.reduceLT]

theorem fits_iff {b : Block} :
    b.fits = true ↔ wordAligned b.start = true ∧ b.start.toNat + 4 * b.regs.length ≤ 2 ^ 32 := by
  simp [Block.fits]

theorem wordAligned_addr {b : Block} (hf : b.fits = true) {k : Nat} (hk : k < b.regs.length) : wordAligned (b.addr k) = true := by
  obtain ⟨hal, hw⟩ := fits_iff.mp hf
  rw [wordAligned_iff] at hal ⊢
  rw [toNat_blockAddr hw hk]
  omega

/-- One word of a store reaches memory where it is not aborted and is ordinary memory. -/
theorem storeWords_one_mem (s : State) (x v : Word) :
    (storeWords s [(x, v)]).mem = if !abortsData s x .word s.cpsr.mode.privileged true && isRam s x
      then memWrite s.env.bigEndian s.mem x v .word else s.mem := by
  simp only [storeWords, writeMem_eq]
  cases abortsData s x .word s.cpsr.mode.privileged true <;> rfl

theorem abortsData_storeWords (s : State) (l : List (Word × Word)) (a : Word) (size : Size) (priv write : Bool) :
    abortsData (storeWords s l) a size priv write = abortsData s a size priv write := by
  rw [abortsData, storeWords_env, abortsData]

theorem isRam_storeWords (s : State) (l : List (Word × Word)) (a : Word) : isRam (storeWords s l) a = isRam s a := by
  rw [isRam, storeWords_env, isRam]

section Words

variable {s : State} {b : Block} (h : blockRefusal s b.start b.regs.length true = none) {k a : Nat} (hk : k < b.regs.length)
  (ha : outside a (b.addr k) 4 = false)
include h hk ha

/-- The bytes of word `k` after a block store are those its own access leaves, with the words before it stored. -/
theorem storeWords_word_read :
    (storeWords s (blockWords s b)).mem.read a =
      (if !abortsData s (b.addr k) .word s.cpsr.mode.privileged true && isRam s (b.addr k)
        then memWrite s.env.bigEndian (storeWords s ((blockWords s b).take k)).mem (b.addr k) (storeValue s b.mode b.regs[k]) .word
        else (storeWords s ((blockWords s b).take k)).mem).read a := by
  have hupto := storeWords_take_read h (k + 1) hk ha
  rw [if_pos (Nat.lt_succ_self k), List.take_add_one, blockWords_getElem? hk, storeWords_append, Option.toList_some,
    storeWords_one_mem, abortsData_storeWords, isRam_storeWords, storeWords_cpsr, storeWords_env] at hupto
  exact hupto.symm

/-- A word that is aborted, or that is ROM or a device, is as it was. -/
theorem storeWords_word_kept
    (hkept : abortsData s (b.addr k) .word s.cpsr.mode.privileged true = true ∨ isRam s (b.addr k) = false) :
    (storeWords s (blockWords s b)).mem.read a = s.mem.read a := by
  have hbefore := storeWords_take_read h k hk ha
  rw [if_neg (Nat.lt_irrefl k)] at hbefore
  rw [storeWords_word_read h hk ha, if_neg (by rcases hkept with hk | hk <;> simp [hk]), hbefore]

end Words

/-! ## Block stores that are taken -/

/-- A word of ordinary memory holds its register's value after a block store that nothing aborts. -/
theorem storeWords_memRead {s : State} {b : Block} (hf : b.fits = true) {k : Nat} (hk : k < b.regs.length)
    (ha : abortsData s (b.addr k) .word s.cpsr.mode.privileged true = false) (hram : isRam s (b.addr k) = true) :
    memRead s.env.bigEndian (storeWords s (blockWords s b)).mem (b.addr k) .word = storeValue s b.mode b.regs[k] := by
  have hal := wordAligned_addr hf hk
  have hbytes := memRead_word_congr (big := s.env.bigEndian) hal fun a =>
    storeWords_word_read (blockRefusal_none s b true hf) hk (a := a)
  rw [hbytes, if_pos (by simp [ha, hram]), memRead_memWrite _ _ _ (by simp [misaligned, hal])]
  simp [Size.bytes, Nat.mod_eq_of_lt (BitVec.isLt _)]

/-- What a block store leaves before the pc moves on, aborted or not: the words stored, the base written back. -/
def blockStored (s : State) (b : Block) : State := writeBack (storeWords s (blockWords s b)) b.rn b.wb

section Stored

variable (s : State) (b : Block)

@[simp] theorem blockStored_pc : (blockStored s b).pc = s.pc := by simp [blockStored]

@[simp] theorem blockStored_cpsr : (blockStored s b).cpsr = s.cpsr := by simp [blockStored]

@[simp] theorem blockStored_spsrs : (blockStored s b).spsrs = s.spsrs := by simp [blockStored]

@[simp] theorem blockStored_mem : (blockStored s b).mem = (storeWords s (blockWords s b)).mem := by simp [blockStored]

@[simp] theorem blockStored_regs : (blockStored s b).regs = (writeBack s b.rn b.wb).regs :=
  writeBack_regs_congr (storeWords_regs s _) (storeWords_cpsr s _) b.rn b.wb

end Stored

theorem blockStore_taken {s : State} {b : Block} (hf : b.fits = true) (ha : b.aborts s true = false) :
    blockStore b.mode b.rn b.regs b.start b.wb s = advance (blockStored s b) := by
  simp only [blockStore, blockRefusal_none s b true hf, blockAborts_eq, ha, Bool.false_eq_true, if_false]
  rfl

/-- Settles O32: a taken block store advances with the base written back over the words stored. (`blockStore` names the machine's
own operation.) -/
theorem blockStore_completes : Obligations.BlockStore := by
  refine ⟨fun i s b hi he hbank hf ha hroom => ?_, fun c p u w rn list s he => exec_needsBank_refused he rfl⟩
  have hr := blockRefusal_none s b true hf
  have hab : ∀ k, k < b.regs.length → abortsData s (b.addr k) .word s.cpsr.mode.privileged true = false := by
    simpa [Block.aborts, abortsData] using ha
  rw [exec_blockStore hi he hbank, blockStore_taken hf ha, advance_past (s := s) (by simp) (by simp) hroom]
  refine ⟨_, rfl, fun k r hk hram => ?stored, fun k a hk hram hin => ?kept, fun a hout => ?outside,
    blockStored_regs s b, rfl, by simp [past], by simp [past]⟩
  all_goals simp only [past, blockStored_mem]
  case stored =>
    obtain ⟨hlt, rfl⟩ := List.getElem?_eq_some_iff.mp hk
    exact storeWords_memRead hf hlt (hab k hlt) hram
  case kept => exact storeWords_word_kept hr hk hin (.inr hram)
  case outside =>
    rw [← List.take_length (l := blockWords s b)]
    exact storeWords_take_read_outside hr _ hout

/-! ## Block transfers that wrap or are misaligned -/

/-- What refuses the block refuses the instruction. -/
theorem exec_block_refused {i : Instr} {s : State} {b : Block} {write : Bool} {why : Refusal}
    (hi : (if write then blockStoreOf s i else blockLoadOf s i) = some b) (he : executes i s = true) (hbank : bankOk i s = true)
    (hr : blockRefusal s b.start b.regs.length write = some why) : exec i s = .refused why := by
  cases write with
  | false => rw [exec_blockLoad hi he hbank, blockLoad, hr]
  | true => rw [exec_blockStore hi he hbank, blockStore, hr]

section Refusals

variable {s : State} {b : Block} {write : Bool}

theorem blockRefusal_wraps (hw : b.wraps = true) : blockRefusal s b.start b.regs.length write = some .blockWraps :=
  if_pos hw

theorem all_abortsData (s : State) (b : Block) (write : Bool) :
    (blockAddrs b.start b.regs.length).all (fun a => abortsData s a .word s.cpsr.mode.privileged write) = b.abortsAll s write := by
  rw [blockAddrs_eq, List.all_map]
  rfl

theorem blockRefusal_of_not_wraps (hw : b.wraps = false) : blockRefusal s b.start b.regs.length write =
    if !wordAligned b.start && !b.abortsAll s write then some .misalignedData else none := by
  rw [← all_abortsData]
  exact if_neg (Bool.eq_false_iff.mp hw)

end Refusals

/-! ## Block transfers that abort -/

theorem takeDataAbort_get_ne (s : State) {p : Phys} (hp : p ≠ .r14Abt) : (takeDataAbort s).regs.get p = s.regs.get p :=
  Regs.get_set_ne _ _ hp

/-- What an aborted block load leaves to the exception: the base written back, then the listed registers but it and R15 free (R309). -/
def blockSpoiled (s : State) (b : Block) : State :=
  freeRegs b.mode (writeBack (recordReads s (blockAddrs b.start b.regs.length)) b.rn b.wb) (spoiled s b.mode b.rn b.regs)

section Spoiled

variable (s : State) (b : Block)

@[simp] theorem blockSpoiled_pc : (blockSpoiled s b).pc = s.pc := by simp [blockSpoiled]

@[simp] theorem blockSpoiled_cpsr : (blockSpoiled s b).cpsr = s.cpsr := by simp [blockSpoiled]

@[simp] theorem blockSpoiled_mem : (blockSpoiled s b).mem = s.mem := by simp [blockSpoiled]

end Spoiled

/-- The base and every register that is not listed end as the write-back says. -/
theorem blockSpoiled_get {s : State} {b : Block} {p : Phys}
    (hp : bank s.cpsr.mode b.rn = some p ∨ ∀ r ∈ b.regs, bank b.mode r ≠ some p) :
    (blockSpoiled s b).regs.get p = (writeBack s b.rn b.wb).regs.get p := by
  rw [blockSpoiled, freeRegs_get_ne, writeBack_regs_congr (s := s) (by simp) (by simp)]
  intro r hr hb
  obtain ⟨hmem, hfree⟩ := List.mem_filter.mp hr
  rcases hp with hbase | hlist
  · simp [hb, hbase] at hfree
  · exact hlist r hmem hb

theorem blockLoad_aborted (e : BlockEnd) {s : State} {b : Block} (hr : blockRefusal s b.start b.regs.length false = none)
    (ha : b.aborts s false = true) :
    blockLoad e b.mode b.rn b.regs b.start b.wb s = .next (takeDataAbort (blockSpoiled s b)) := by
  simp only [blockLoad, hr, blockAborts_eq, ha, if_true]
  rfl

theorem blockStore_aborted {s : State} {b : Block} (hr : blockRefusal s b.start b.regs.length true = none)
    (ha : b.aborts s true = true) :
    blockStore b.mode b.rn b.regs b.start b.wb s = .next (takeDataAbort (blockStored s b)) := by
  simp only [blockStore, hr, blockAborts_eq, ha, if_true]
  rfl

/-- Settles O33: the refusals of the block in their order, then the Data Abort of a load and of a store. -/
theorem blockAbort : Obligations.BlockAbort := by
  intro i s b write hi he hbank
  refine ⟨fun hw => exec_block_refused hi he hbank (blockRefusal_wraps hw), fun hw hal hall => ?misaligned,
    fun hw hal ha => ?aborted⟩
  case misaligned =>
    exact exec_block_refused hi he hbank (by simp [blockRefusal_of_not_wraps hw, hal, hall])
  case aborted =>
    have hr : blockRefusal s b.start b.regs.length write = none := by
      rw [blockRefusal_of_not_wraps hw]
      rcases hal with hal | hal <;> simp [hal]
    cases write with
    | false =>
      have hregs : ∀ p, p ≠ .r14Abt → (bank s.cpsr.mode b.rn = some p ∨ ∀ r ∈ b.regs, bank b.mode r ≠ some p) →
          (takeDataAbort (blockSpoiled s b)).regs.get p = (writeBack s b.rn b.wb).regs.get p :=
        fun p hne hp => (takeDataAbort_get_ne _ hne).trans (blockSpoiled_get hp)
      rw [exec_blockLoad hi he hbank, blockLoad_aborted _ hr ha]
      exact ⟨_, rfl, tookDataAbort (by simp) (by simp), fun p hp hne => hregs p hne (.inl hp),
        fun p hne hp => hregs p hne (.inr (hp.resolve_left nofun)), fun _ => blockSpoiled_mem s b, nofun⟩
    | true =>
      have hregs : ∀ p, p ≠ .r14Abt →
          (takeDataAbort (blockStored s b)).regs.get p = (writeBack s b.rn b.wb).regs.get p :=
        fun p hne => (takeDataAbort_get_ne _ hne).trans (by rw [blockStored_regs])
      have hmem : (takeDataAbort (blockStored s b)).mem = (storeWords s (blockWords s b)).mem := blockStored_mem s b
      rw [exec_blockStore hi he hbank, blockStore_aborted hr ha]
      exact ⟨_, rfl, tookDataAbort (by simp) (by simp), fun p _ => hregs p, fun p hne _ => hregs p hne, nofun,
        fun _ k a hk hab hin => hmem ▸ storeWords_word_kept hr hk hin (.inl hab)⟩

end Sys2Proof.Machine
end

section
/-! The instructions that trap: SWI in both states, the undefined instruction and the coprocessor instructions (46_arm_swi_coproc_undef
R321, R324, R330, 49_thumb_branch R443). -/

namespace Sys2Proof.Machine

open Sys2Proof.Claims

/-- A trap is SWI or Undefined Instruction, so neither FIQ nor an abort. -/
theorem trapOf_eq {i : Instr} {e : Exc} (hi : trapOf i = some e) : e = .swi ∨ e = .undefined := by
  cases i <;> cases hi
  case swi | tSwi => exact .inl rfl
  case undef | stc | ldc | cdp | mcr | mrc => exact .inr rfl

/-- An instruction that traps takes its exception once it executes: the ARM forms behind their condition, the Thumb SWI always. -/
theorem exec_trap_taken {i : Instr} {s : State} {e : Exc} (hi : trapOf i = some e) (h : executes i s = true) :
    exec i s = .next (takeTrap e s) := by
  obtain ⟨-, hc, hb⟩ := (executes_iff _ _).mp h
  cases i <;> cases hi
  case undef | stc | ldc | cdp | mcr | mrc | swi => exact conditional_pass hc hb
  case tSwi => rfl

theorem enterException_get_lr (e : Exc) (ret : Word) (s : State) : (enterException e ret s).regs.get (lrOf e.mode) = ret := by
  rw [enterException_regs, Regs.get_set_same]

theorem enterException_get_ne (e : Exc) (ret : Word) (s : State) {p : Phys} (hp : p ≠ lrOf e.mode) :
    (enterException e ret s).regs.get p = s.regs.get p := by
  rw [enterException_regs, Regs.get_set_ne _ _ hp]

theorem enterException_spsr_ne (e : Exc) (ret : Word) (s : State) {m : Mode} (hm : m ≠ e.mode) :
    (enterException e ret s).spsrs.get m = s.spsrs.get m := by
  rw [enterException_spsrs, Spsrs.get_set_ne _ _ hm]

/-- Of the exceptions only FIQ sets F (60_exceptions R468). -/
theorem entryPsr_of_ne_fiq {e : Exc} (h : e ≠ .fiq) (p : Psr) : entryPsr e p = { p with mode := e.mode, t := false, i := true } := by
  simp [entryPsr, h]

/-- Settles O44: the instruction is the entry of its exception (`exec_trap_taken`), which is SWI or Undefined Instruction
(`trapOf_eq`); the rest is what an entry does. -/
theorem traps : Obligations.Traps := by
  intro i s e hi he
  have htrap := trapOf_eq hi
  have hfiq : e ≠ .fiq := by rcases htrap with rfl | rfl <;> nofun
  have hvector : e.vector = if e = .swi then 0x00000008 else 0x00000004 := by rcases htrap with rfl | rfl <;> rfl
  exact ⟨takeTrap e s, exec_trap_taken hi he, enterException_get_lr e _ s, enterException_spsr e _ s, entryPsr_of_ne_fiq hfiq s.cpsr,
    hvector, fun _ => enterException_get_ne e _ s, fun _ => enterException_spsr_ne e _ s, rfl, rfl⟩

end Sys2Proof.Machine
end

section
/-! The Thumb branches: the fourteen conditional ones, B, and the two halves of BL (49_thumb_branch R441 to R447). -/

namespace Sys2Proof.Machine

open Sys2Proof.Claims

theorem instrBytes_thumb {s : State} (ht : s.cpsr.t = true) : instrBytes s = 2 := by
  simp [instrBytes, ht]

/-- A scaled immediate is the field times a power of two (30_encoding R152). -/
theorem scaled_eq {n : Nat} (imm : BitVec n) (k : Nat) : scaled imm k = BitVec.ofNat 32 (2 ^ k * imm.toNat) := by
  apply BitVec.eq_of_toNat_eq
  rw [scaled, BitVec.toNat_shiftLeft, Nat.shiftLeft_eq, BitVec.toNat_setWidth, BitVec.toNat_ofNat, Nat.mod_mul_mod, Nat.mul_comm]

/-! ## Conditional branches and B -/

theorem exec_condBranch {i : Instr} {c : Cond} {off : BitVec 8} (hi : condBranchOf i = some (c, off)) (s : State) :
    exec i s = branchIf c off s := by
  cases i <;> cases hi <;> rfl

theorem branchIf_pass {c : Cond} {s : State} (h : condPassed c s.cpsr = true) (off : BitVec 8) :
    branchIf c off s = .next (branchTo (s.pc + 4 + branchOffset off 1) s) :=
  if_pos h

theorem branchIf_fail {c : Cond} {s : State} (h : condPassed c s.cpsr = false) (off : BitVec 8) : branchIf c off s = advance s := by
  rw [branchIf, h, if_neg Bool.false_ne_true]

/-- A Thumb branch offset counts halfwords. -/
theorem branchOffset_halfwords {n : Nat} (off : BitVec n) : branchOffset off 1 = BitVec.ofInt 32 (2 * off.toInt) :=
  branchOffset_eq off 1

/-- Settles O37: a conditional branch is taken or only advances; B is always taken. -/
theorem thumbBranches : Obligations.ThumbBranches := by
  intro s ht
  refine ⟨fun i c off hi => ?conditional, fun off => ?always⟩
  case conditional =>
    rw [exec_condBranch hi, ← branchOffset_halfwords]
    refine ⟨fun hc => branchIf_pass hc off, fun hc hroom => ?_, fun hc hroom => ?_⟩
    · rw [branchIf_fail hc, advance_of_room hroom, instrBytes_thumb ht]
    · rw [branchIf_fail hc, advance_of_no_room hroom]
  case always =>
    rw [← branchOffset_halfwords]
    rfl

/-! ## BL -/

theorem readReg_past {r : Reg} (hr : r ≠ 15) (s t : State) : readReg (past s t) r = readReg t r :=
  readReg_congr hr rfl rfl

theorem readReg_branchTo {r : Reg} (hr : r ≠ 15) (a : Word) (s : State) : readReg (branchTo a s) r = readReg s r :=
  readReg_congr hr rfl rfl

/-- The offset of the first half of BL counts blocks of 4096 bytes (R446). -/
theorem branchOffset_upper (off : BitVec 11) : branchOffset off 12 = BitVec.ofInt 32 (4096 * off.toInt) :=
  branchOffset_eq off 12

theorem exec_tBlHi {s : State} (hroom : room s = true) (off : BitVec 11) :
    exec (.tBlHi off) s = .next (past s (writeReg s 14 (s.pc + 4 + branchOffset off 12))) :=
  advance_writeReg hroom 14 _

theorem exec_tBlLo (off : BitVec 11) (s : State) :
    exec (.tBlLo off) s = .next (branchTo (halfMask (readReg s 14 + scaled off 1)) (writeReg s 14 ((s.pc + 2) ||| 1))) := rfl

/-- The two halves of the offset of BL are one signed 23-bit number of bytes (R445). -/
theorem branchOffset_upper_add_scaled (hiOff loOff : BitVec 11) :
    branchOffset hiOff 12 + scaled loOff 1 = branchOffset (hiOff ++ loOff) 1 := by
  have hsum : (2 ^ 1 * (hiOff ++ loOff).toInt : Int) = 2 ^ 12 * hiOff.toInt + ((2 ^ 1 * loOff.toNat : Nat) : Int) := by
    rw [BitVec.toInt_append, if_neg (by decide)]
    push_cast
    ring
  rw [branchOffset_eq, branchOffset_eq, scaled_eq, hsum, BitVec.ofInt_add, BitVec.ofInt_natCast]

/-- Settles O38: each half by its own operation; run one after the other, the second finds in R14 what the first left, and the sum
of the two offsets keeps the alignment of the pc. -/
theorem thumbLongBranch : Obligations.ThumbLongBranch := by
  intro s ht
  refine ⟨fun off hroom => ?first, fun off => ?second, fun hiOff loOff hroom hal => ?pair⟩
  case first => rw [exec_tBlHi hroom, branchOffset_upper]
  case second => rw [exec_tBlLo, scaled_eq]; rfl
  case pair =>
    refine ⟨_, _, exec_tBlHi hroom hiOff, exec_tBlLo loOff _, ?pc, ?link, by simp [past], by simp [past]⟩
    case pc =>
      have haligned : halfAligned (s.pc + 4 + branchOffset (hiOff ++ loOff) 1) = true := by
        simpa [fetchSize, ht, misaligned] using thumbTarget_aligned (hiOff ++ loOff) ht hal
      rw [branchTo_pc, readReg_past (by decide), readReg_writeReg_same s _ (by decide), BitVec.add_assoc,
        branchOffset_upper_add_scaled, halfMask_of_aligned haligned, branchOffset_halfwords]
    case link =>
      have hnext (t : State) : (past s t).pc + 2 = s.pc + 4 := by
        simp only [past, ht, if_true]
        bv_omega
      rw [readReg_branchTo (by decide), readReg_writeReg_same _ _ (by decide), hnext]

end Sys2Proof.Machine
end

section
/-! Thumb data processing and address generation (47_thumb_alu R340 to R378, 48_thumb_load_store R420 to R423): each instruction as
one operation, and the same operation of its ARM equivalent. -/

namespace Sys2Proof.Machine

open Sys2Proof.Claims

/-! ## Formats 1 to 4 and the format 5 CMP -/

/-- The machine's operation of a Thumb data-processing instruction; NEG is the reverse subtraction from 0 (R361). -/
theorem exec_thumbDp {i : Instr} {s : State} {op : AluOp} {rd : Reg} {a : Word} {o : Shifted}
    (hi : thumbDp s i = some (op, rd, a, o)) (hb : i.broken = none) :
    exec i s = if compares op then thumbCompare op a o s else thumbAlu op rd a o s := by
  cases i <;> cases hi
  case tCmpHd => rw [exec, execTCmpHd, show pcRule _ = none from hb]; rfl
  all_goals rfl

theorem thumbAlu_of_room {op : AluOp} {rd : Reg} {a : Word} {o : Shifted} {s : State} (hroom : room s = true) :
    thumbAlu op rd a o s =
      .next (past s { writeReg s rd (dpResult op a o.value s.cpsr.c) with cpsr := dpFlags op a o s.cpsr }) := by
  simp only [thumbAlu, alu_result, flagsOf_alu]
  exact advance_past (writeReg_pc s rd _) rfl hroom

theorem thumbCompare_of_room {op : AluOp} {a : Word} {o : Shifted} {s : State} (hroom : room s = true) :
    thumbCompare op a o s = .next (past s { s with cpsr := dpFlags op a o s.cpsr }) := by
  rw [thumbCompare, flagsOf_alu]
  exact advance_past rfl rfl hroom

/-- Settles O39: a compare advances with its flags, every other operation with its result too. -/
theorem thumbDataProcessing : Obligations.ThumbDataProcessing := by
  intro i s op rd a o hi he hroom
  obtain ⟨-, -, hb⟩ := (executes_iff i s).mp he
  rw [exec_thumbDp hi hb]
  cases compares op
  case true => exact thumbCompare_of_room hroom
  case false => exact thumbAlu_of_room hroom

/-! ## Format 5 ADD and MOV, formats 12 and 13 -/

theorem exec_high {i : Instr} {s : State} {rd : Reg} {v : Word} (hi : highOf s i = some (rd, v)) : exec i s = writeHigh rd v s := by
  cases i <;> cases hi <;> rfl

theorem writeHigh_pc (v : Word) (s : State) : writeHigh 15 v s = .next (branchTo (halfMask v) s) := rfl

theorem writeHigh_register {rd : Reg} (h : rd ≠ 15) (v : Word) (s : State) : writeHigh rd v s = advance (writeReg s rd v) :=
  if_neg h

/-- An immediate that counts words (R420 to R423). -/
theorem scaled_words {n : Nat} (imm : BitVec n) : scaled imm 2 = BitVec.ofNat 32 (4 * imm.toNat) :=
  scaled_eq imm 2

/-- Address generation writes its register, which is never R15. -/
theorem exec_thumbAddress {i : Instr} {s : State} {rd : Reg} {v : Word} (hi : thumbAddressOf s i = some (rd, v)) :
    rd ≠ 15 ∧ exec i s = advance (writeReg s rd v) := by
  cases i <;> cases hi <;> rw [← scaled_words]
  case tAddPc rd imm | tAddSp rd imm => exact ⟨lo_ne_pc rd, rfl⟩
  case tAddSpImm imm | tSubSpImm imm => exact ⟨by decide, rfl⟩

/-- Settles O41: a register destination is written and the instruction advances; R15, of a format 5 form, is the branch. -/
theorem thumbRegisterWrites : Obligations.ThumbRegisterWrites := by
  rintro i s rd v (hi | hi) -
  case inl =>
    rw [exec_high hi]
    refine ⟨fun hrd hroom => ?_, ?_⟩
    · rw [writeHigh_register hrd, advance_writeReg hroom]
    · rintro rfl
      exact writeHigh_pc v s
  case inr =>
    obtain ⟨hrd, hx⟩ := exec_thumbAddress hi
    exact ⟨fun _ hroom => hx.trans (advance_writeReg hroom rd v), fun h => absurd h hrd⟩

/-! ## The ARM equivalent (R340) -/

/-- The same state with T = 0: where the ARM equivalent runs. -/
def inArm (s : State) : State := { s with cpsr := { s.cpsr with t := false } }

/-- `u`, a state an ARM instruction left, as the Thumb instruction at `pc` leaves it. -/
def inThumb (pc : Word) (u : State) : State := { u with pc := pc + 2, cpsr := { u.cpsr with t := true } }

/-- R15 reads differently in the two states; every other register is the same. -/
theorem readReg_inArm {r : Reg} (hr : r ≠ 15) (s : State) : readReg (inArm s) r = readReg s r :=
  readReg_congr hr rfl rfl

theorem writeReg_inArm (s : State) (r : Reg) (v : Word) : writeReg (inArm s) r v = inArm (writeReg s r v) := by
  have hmode : (inArm s).cpsr.mode = s.cpsr.mode := rfl
  unfold writeReg writeBank
  rw [hmode]
  cases bank s.cpsr.mode r <;> rfl

theorem alu_inArm (op : AluOp) (a : Word) (o : Shifted) (s : State) : alu op a o (inArm s).cpsr = alu op a o s.cpsr := by
  cases op <;> rfl

/-- Where the ARM instruction has room for its four bytes, the Thumb instruction has room for its two. -/
theorem advance_of_inArm {s v u : State} (hpc : v.pc = s.pc) (ht : v.cpsr.t = true) (h : advance (inArm v) = .next u) :
    advance v = .next (inThumb s.pc u) := by
  obtain ⟨hroom, rfl⟩ := advance_next h
  have hroom4 : v.pc.toNat + (4 : Word).toNat < 2 ^ 32 := (room_iff _).mp hroom
  have hroom2 : room v = true := by
    rw [room_iff, instrBytes_thumb ht]
    simp only [BitVec.reduceToNat] at hroom4 ⊢
    omega
  have hv : inThumb s.pc { inArm v with pc := (inArm v).pc + instrBytes (inArm v) } = { v with pc := v.pc + 2 } := by
    rw [← hpc]
    show { v with pc := v.pc + 2, cpsr := { v.cpsr with t := true } } = _
    rw [← ht]
  rw [advance_of_room hroom2, instrBytes_thumb ht, hv]

/-- A register but R15, shifted, reads the same in the two states. -/
theorem shImmForm_inArm {o : ShImm} (h : o.rm ≠ 15) (s : State) : shImmForm (inArm s) o = shImmForm s o := by
  rw [shImmForm, readReg_inArm h]
  rfl

theorem shRegForm_inArm {o : ShReg} (hm : o.rm ≠ 15) (hs : o.rs ≠ 15) (s : State) : shRegForm (inArm s) o = shRegForm s o := by
  rw [shRegForm, readReg_inArm hm, readReg_inArm hs]
  rfl

/-- An immediate that is not rotated is itself, and C its carry-out. -/
theorem immForm_plain (imm : BitVec 8) (s : State) : immForm (inArm s) ⟨0, imm⟩ = plain (imm.setWidth 32) s := by
  have hror : rotValue ⟨0, imm⟩ = imm.setWidth 32 := by
    simp [rotValue, ror, BitVec.shiftLeft_eq_zero]
  rw [immForm, immOperand, hror]
  rfl

/-- An immediate rotated right by 30 counts words. -/
theorem rotValue_words (imm : BitVec 8) : rotValue ⟨15, imm⟩ = scaled imm 2 := by
  have hright : imm.setWidth 32 >>> 30 = (0 : Word) :=
    BitVec.eq_of_toNat_eq (by
      rw [BitVec.toNat_ushiftRight, BitVec.toNat_setWidth_of_le (by decide), Nat.shiftRight_eq_div_pow]
      exact Nat.div_eq_of_lt (imm.isLt.trans (by decide)))
  have hror : rotValue ⟨15, imm⟩ = imm.setWidth 32 >>> 30 ||| scaled imm 2 := rfl
  rw [hror, hright]
  exact BitVec.zero_or

/-- The Thumb immediates of fewer than eight bits, in the 8-bit field of the ARM instruction. -/
theorem setWidth_byte_word {n : Nat} (hn : n ≤ 8) (imm : BitVec n) : (imm.setWidth 8).setWidth 32 = imm.setWidth 32 := by
  have h8 : imm.toNat < 2 ^ 8 := imm.isLt.trans_le (Nat.pow_le_pow_right (by decide) hn)
  apply BitVec.eq_of_toNat_eq
  rw [BitVec.toNat_setWidth, BitVec.toNat_setWidth, BitVec.toNat_setWidth, Nat.mod_eq_of_lt h8]

theorem immForm_plain_short {n : Nat} (hn : n ≤ 8) (imm : BitVec n) (s : State) :
    immForm (inArm s) ⟨0, imm.setWidth 8⟩ = plain (imm.setWidth 32) s := by
  rw [immForm_plain, setWidth_byte_word hn]

theorem rotValue_words_short {n : Nat} (hn : n ≤ 8) (imm : BitVec n) : rotValue ⟨15, imm.setWidth 8⟩ = scaled imm 2 := by
  rw [rotValue_words, scaled, setWidth_byte_word hn, scaled]

/-- AL always passes, so a next state is that of the instruction's own operation. -/
theorem conditional_al_next {b : Option Restriction} {s t : State} {r : Result} (h : conditional .al b s r = .next t) :
    b = none ∧ r = .next t := by
  obtain ⟨-, hb⟩ | ⟨hc, -⟩ := conditional_next h
  · exact hb
  · cases hc

/-- The restriction of MUL (R365) is one of those of its ARM equivalent. -/
theorem thumbMulRule_of_mulRule : ∀ {rs rd : LoReg}, mulRule (lo rd) (lo rs) [lo rd] = none → thumbMulRule rs rd = none := by
  decide

section Equivalent

variable {s u : State} {op : AluOp} {rd : Reg} {a a' v v' : Word} {o o' : Shifted}
  (ht : s.cpsr.t = true)
include ht

/-- An operation that writes Rd and the flags. -/
theorem thumbAlu_of_arm (hrd : rd ≠ 15) (h : dataProcess op true a' rd o' (inArm s) = .next u) (ha : a' = a) (ho : o' = o) :
    thumbAlu op rd a o s = .next (inThumb s.pc u) := by
  subst ha ho
  rw [dataProcess, if_neg hrd, alu_inArm, writeReg_inArm] at h
  exact advance_of_inArm (writeReg_pc s rd _) ht h

/-- A compare. -/
theorem thumbCompare_of_arm (h : compare op a' o' (inArm s) = .next u) (ha : a' = a) (ho : o' = o) :
    thumbCompare op a o s = .next (inThumb s.pc u) := by
  subst ha ho
  rw [compare, alu_inArm] at h
  exact advance_of_inArm rfl ht h

/-- An operation that writes Rd and no flag. -/
theorem writeReg_of_arm (hrd : rd ≠ 15) (h : dataProcess op false a' rd o' (inArm s) = .next u) (ha : a' = a) (hv : o'.value = v) :
    advance (writeReg s rd (dpResult op a v s.cpsr.c)) = .next (inThumb s.pc u) := by
  subst ha hv
  have harm : dataProcess op false a' rd o' (inArm s) = advance (inArm (writeReg s rd (dpResult op a' o'.value s.cpsr.c))) := by
    rw [dataProcess, if_neg hrd, alu_inArm, alu_result, writeReg_inArm]
    simp only [flagsIf, Bool.false_eq_true, if_false, inArm, writeReg_cpsr]
  exact advance_of_inArm (writeReg_pc s rd _) ((congrArg Psr.t (writeReg_cpsr s rd _)).trans ht) (harm ▸ h)

/-- The multiply, which draws the same free bit in either state. -/
theorem finishMul_of_arm (h : finishMul true rd v' (inArm s) = .next u) (hv : v' = v) :
    finishMul true rd v s = .next (inThumb s.pc u) := by
  subst hv
  rw [finishMul, writeReg_inArm] at h
  exact advance_of_inArm (writeReg_pc s rd v') ht h

end Equivalent

/-- Settles O40: the equivalent is the same operation on the same operands (`readReg_inArm` and the operand forms), so what it
advances from is the state the Thumb instruction advances from, with T = 0 (`advance_of_inArm`). -/
theorem thumbArmEquivalent : Obligations.ThumbArmEquivalent := by
  intro i j s u hij ht _ h
  change exec j (inArm s) = .next u at h
  cases i <;> cases hij
  case tAddReg | tSubReg | tAnd | tEor | tAdc | tSbc | tOrr | tBic =>
    exact thumbAlu_of_arm ht (lo_ne_pc _) h (readReg_inArm (lo_ne_pc _) s) (shImmForm_inArm (lo_ne_pc _) s)
  case tMvn | tLslImm | tLsrImm | tAsrImm => exact thumbAlu_of_arm ht (lo_ne_pc _) h rfl (shImmForm_inArm (lo_ne_pc _) s)
  case tMovImm => exact thumbAlu_of_arm ht (lo_ne_pc _) h rfl (immForm_plain _ s)
  case tAddImm8 | tSubImm8 | tNeg =>
    exact thumbAlu_of_arm ht (lo_ne_pc _) h (readReg_inArm (lo_ne_pc _) s) (immForm_plain _ s)
  case tTst | tCmpReg | tCmn => exact thumbCompare_of_arm ht h (readReg_inArm (lo_ne_pc _) s) (shImmForm_inArm (lo_ne_pc _) s)
  case tCmpImm => exact thumbCompare_of_arm ht h (readReg_inArm (lo_ne_pc _) s) (immForm_plain _ s)
  case tLslReg | tLsrReg | tAsrReg | tRorReg =>
    obtain ⟨-, h⟩ := conditional_al_next (s := inArm s) h
    exact thumbAlu_of_arm ht (lo_ne_pc _) h rfl (shRegForm_inArm (lo_ne_pc _) (lo_ne_pc _) s)
  case tAddImm3 | tSubImm3 =>
    exact thumbAlu_of_arm ht (lo_ne_pc _) h (readReg_inArm (lo_ne_pc _) s) (immForm_plain_short (by decide) _ s)
  case tMul rs rd =>
    obtain ⟨hb, h⟩ := conditional_al_next (s := inArm s) h
    rw [exec, execTMul, thumbMulRule_of_mulRule hb, checked]
    exact finishMul_of_arm ht h (by rw [readReg_inArm (lo_ne_pc _), readReg_inArm (lo_ne_pc _), BitVec.mul_comm])
  case tAddSp => exact writeReg_of_arm (op := .add) ht (lo_ne_pc _) h (readReg_inArm (by decide) s) (rotValue_words _)
  case tAddSpImm =>
    exact writeReg_of_arm (op := .add) ht (by decide) h (readReg_inArm (by decide) s) (rotValue_words_short (by decide) _)
  case tSubSpImm =>
    exact writeReg_of_arm (op := .sub) ht (by decide) h (readReg_inArm (by decide) s) (rotValue_words_short (by decide) _)

end Sys2Proof.Machine
end

section
/-! Exception entry, the return from it, and what a step does before any instruction (60_exceptions R468 to R473, R479, R483). -/

namespace Sys2Proof.Machine

open Sys2Proof.Claims

/-! ## Entry -/

theorem entryPsr_eq (e : Exc) (p : Psr) :
    entryPsr e p = { p with mode := e.mode, t := false, i := true, f := if e = .fiq then true else p.f } := by
  by_cases he : e = .fiq <;> simp [entryPsr, he]

/-- Settles O43, by the laws of an entry (`enterException_get_lr` and its companions) and the table of modes and vectors. -/
theorem exceptionEntry : Obligations.ExceptionEntry := by
  intro e ret s
  exact ⟨enterException_get_lr e ret s, fun _ => enterException_get_ne e ret s, enterException_spsr e ret s,
    fun _ => enterException_spsr_ne e ret s, entryPsr_eq e s.cpsr, by cases e <;> rfl, by cases e <;> rfl, rfl, rfl⟩

/-! ## The return -/

/-- Aligned addresses have an aligned sum. -/
theorem misaligned_add {a b : Word} {size : Size} (ha : misaligned a size = false) (hb : misaligned b size = false) :
    misaligned (a + b) size = false := by
  cases size <;>
    simp only [misaligned, Bool.not_eq_false', wordAligned_iff, halfAligned_iff, BitVec.toNat_add] at ha hb ⊢ <;> omega

/-- The next instruction of either state is aligned where the pc is. -/
theorem nextPc_aligned {s : State} (h : pcAligned s = true) : misaligned (nextPc s) (fetchSize s) = false := by
  refine misaligned_add (pcAligned_iff.mp h) ?_
  unfold instrBytes fetchSize
  cases s.cpsr.t <;> rfl

/-- In the mode an exception has entered, R14 is the return value. -/
theorem readReg_link_of_entry (e : Exc) (ret : Word) (s : State) : readReg (enterException e ret s) 14 = ret := by
  simp only [readReg, readBank, enterException_cpsr, entryPsr, bank_link, enterException_get_lr]

/-- A return from the state an entry leaves, to an address aligned for the state it was entered from, restores the CPSR. -/
theorem exceptionReturn_of_entry (e : Exc) (ret : Word) {s : State} {a : Word} (ha : misaligned a (fetchSize s) = false) :
    exceptionReturn false a (enterException e ret s) = .next (branchTo a { enterException e ret s with cpsr := s.cpsr }) := by
  rw [exceptionReturn_restore (enterException_spsr e ret s)]
  unfold fetchSize at ha
  cases ht : s.cpsr.t <;> simp only [ht, Bool.false_eq_true, if_true, if_false, misaligned, Bool.not_eq_false'] at ha ⊢
  case true => rw [halfMask_of_aligned ha]
  case false => exact if_pos ha

/-- MOVS PC, R14 goes back to the return value. -/
theorem exec_movs_of_entry (e : Exc) {ret : Word} {s : State} (h : misaligned ret (fetchSize s) = false) :
    exec (.movShImm .al true 15 ⟨0, .lsl, 14⟩) (enterException e ret s) =
      .next (branchTo ret { enterException e ret s with cpsr := s.cpsr }) := by
  have hexec : exec (.movShImm .al true 15 ⟨0, .lsl, 14⟩) (enterException e ret s) =
      exceptionReturn false (readReg (enterException e ret s) 14) (enterException e ret s) := rfl
  rw [hexec, readReg_link_of_entry, exceptionReturn_of_entry e ret h]

/-- SUBS PC, R14, #n goes back to the return value less `n`. -/
theorem exec_subs_of_entry (e : Exc) {ret : Word} {s : State} (o : RotImm)
    (h : misaligned (ret - rotValue o) (fetchSize s) = false) :
    exec (.subImm .al true 14 15 o) (enterException e ret s) =
      .next (branchTo (ret - rotValue o) { enterException e ret s with cpsr := s.cpsr }) := by
  have hexec : exec (.subImm .al true 14 15 o) (enterException e ret s) =
      dataProcess .sub true (readReg (enterException e ret s) 14) 15 (immForm (enterException e ret s) o)
        (enterException e ret s) := rfl
  rw [hexec, dataProcess_return, readReg_link_of_entry]
  exact exceptionReturn_of_entry e ret h

/-- Settles O45: each entry leaves in R14 what its return instruction moves or takes its constant from, and the address that
gives is aligned for the state gone back to. -/
theorem returnRoundTrip : Obligations.ReturnRoundTrip := by
  intro s hs
  have hpc : misaligned s.pc (fetchSize s) = false := pcAligned_iff.mp hs
  have hpc4 : misaligned (s.pc + 4) (fetchSize s) = false := misaligned_add hpc (aligned_of_word s rfl)
  have h4 : s.pc + 4 - rotValue ⟨0, 4⟩ = s.pc := BitVec.add_sub_cancel s.pc 4
  have h8 : s.pc + 8 - rotValue ⟨0, 8⟩ = s.pc := BitVec.add_sub_cancel s.pc 8
  have h84 : s.pc + 8 - rotValue ⟨0, 4⟩ = s.pc + 4 := by
    have : rotValue ⟨0, 4⟩ = 4 := rfl
    bv_omega
  refine ⟨fun e _ => ⟨_, exec_movs_of_entry e (nextPc_aligned hs), rfl, rfl⟩,
    fun e _ => ⟨_, exec_subs_of_entry e _ ?_, h4, rfl⟩,
    ⟨_, exec_subs_of_entry .dataAbort _ ?_, h8, rfl⟩, ⟨_, exec_subs_of_entry .dataAbort _ ?_, h84, rfl⟩⟩
  · rwa [h4]
  · rwa [h8]
  · rwa [h84]

/-! ## Before the instruction -/

theorem fetch_of_boundary {s t : State} (h : boundary (lines s) (beginStep s) = some t) : fetch s = .taken t := by
  rw [fetch, h]

theorem fetch_of_no_boundary {s : State} (h : boundary (lines s) (beginStep s) = none) : fetch s = fetchAt (beginStep s) := by
  rw [fetch, h]

/-- A step that takes an exception, where no reset falls into it. -/
theorem step_of_taken {s t : State} (h : fetch s = .taken t) (hr : (lines s).resetAfter = none) : step s = .next t := by
  rw [step_whole hr, wholeStep, h]

/-- With its line LOW a reset is the whole step, whatever the other lines and whether another reset falls into it. -/
theorem step_of_reset {s : State} (h : (lines s).nRESET = false) : step s = .next (takeReset (beginStep s)) := by
  have hfetch : fetch s = .taken (takeReset (beginStep s)) := fetch_of_boundary (by simp [boundary, h])
  simp only [step, wholeStep, hfetch, endStep, h]

/-- An aborted fetch is the Prefetch Abort, its own access on the bus. -/
theorem fetchAt_of_abort {s : State} (hal : pcAligned s = true) (hab : fetchAborts s = true) :
    fetchAt s = .taken (takeBefore .prefetchAbort (record s (fetchAccess s))) := by
  simp [fetchAt, hal, hab]

/-- Settles O46: the order of `boundary`, and behind it the abort of the fetch, which comes before the decoder. -/
theorem boundaryOrder : Obligations.BoundaryOrder := by
  refine fun s => ⟨step_of_reset, fun hr => ⟨fun h1 h2 h3 => ?fiq, fun h1 h2 h3 h4 => ?irq, fun h1 h2 h3 hal hab => ?abort⟩⟩
  case fiq => exact step_of_taken (fetch_of_boundary (by simp [boundary, h1, h2, h3, takeBefore])) hr
  case irq =>
    have hfiq : (!(lines s).nFIQ && !s.cpsr.f) = false := by obtain h | h := h2 <;> simp [h]
    exact step_of_taken (fetch_of_boundary (by simp [boundary, h1, hfiq, h3, h4, takeBefore])) hr
  case abort =>
    have hnone : boundary (lines s) (beginStep s) = none :=
      boundary_eq_none.mpr ⟨h1, Bool.or_eq_true_iff.mpr h2, Bool.or_eq_true_iff.mpr h3⟩
    have hfetch := (fetch_of_no_boundary hnone).trans (fetchAt_of_abort (s := beginStep s) hal hab)
    exact ⟨_, step_of_taken hfetch hr, rfl, rfl, entryPsr_of_ne_fiq (by decide) s.cpsr, rfl, rfl⟩

end Sys2Proof.Machine
end
